-- ==== Sys2Proof/Word.lean ====
section
/-! DEFINITION. The bit-vector widths the spec uses (R10, R20): words, bytes, nibbles. -/

namespace Sys2Proof

/-- A 32-bit register value, OPREQ word or pulse entry word (R23, R64). -/
abbrev Word := BitVec 32

/-- A byte of the frame (R20, R101). -/
abbrev Byte := BitVec 8

/-- A 4-bit half of a byte (R15), a command code, an operation code or an error code. -/
abbrev Nibble := BitVec 4

end Sys2Proof
end

