-- ==== Sys2Proof/Machine/Types.lean ====
section
/-! DEFINITION. The data types State is made of: frame, pulse, captured request, registers of the map, bus accesses, the
inputs of the machine and what a bus agent has seen. -/

namespace Sys2Proof.Machine

/-- The 7-byte frame; `b0` is FRAME[0] (R20, R33, R101). -/
structure Frame where
  b0 : Byte
  b1 : Byte
  b2 : Byte
  b3 : Byte
  b4 : Byte
  b5 : Byte
  b6 : Byte
deriving DecidableEq, Repr

/-- A pulse (R11): `level` true is high, `dur` a number of microseconds. Durations are exact naturals here (R190) and
become 31 bits in a pulse entry word (R37; log 15). -/
structure Pulse where
  level : Bool
  dur : Nat
deriving DecidableEq, Repr

/-- A captured operation request (R38): the fields of an OPREQ word, its reserved bits kept as one flag RSVD_SET. -/
structure Request where
  op : Nibble
  first : Bool
  last : Bool
  rsvd : Bool
deriving DecidableEq, Repr

/-- Why a request is no operation (R93). Each reason completes with ERR = IllegalOp. -/
inductive DecodeReject where
  /-- A bit in [7:4] or [31:10] is 1. -/
  | reservedBit
  /-- FIRST or LAST is 1 and OP is not 0x5. -/
  | strayFlag
  /-- OP is 0x0, or in 0x9 to 0xF. -/
  | reservedOp
deriving DecidableEq, Repr

/-- The result codes of STATUS.ERR by name (R240). -/
inductive ErrCode where
  | ok
  | invalidRepeatCount
  | capacityExceeded
  | invalidCommand
  | illegalOp
  | outputLocked
deriving DecidableEq, Repr

/-- The closed enumeration of commands (R100). -/
inductive Command where
  | stop
  | up
  | down
  | prog
deriving DecidableEq, Repr

/-- The two agents outside the block (R17). -/
inductive Agent where
  | host
  | driver
deriving DecidableEq, Repr

/-- The width of a bus access (R63). -/
inductive Width where
  | w8
  | w16
  | w32
  | w64
deriving DecidableEq, Repr

/-- A register of the map (R23); `raw j` and `out j` are the buffer entries. -/
inductive Reg where
  | opreq
  | status
  | cmd
  | repeats
  | rc
  | addr
  | rawCount
  | outCount
  | frame0
  | frame1
  | capacity
  | raw (j : Nat)
  | out (j : Nat)
deriving DecidableEq, Repr

/-- What an access does (R12): a read, or a write of a value. -/
inductive BusOp where
  | read
  | write (v : Word)
deriving DecidableEq, Repr

/-- One bus access (R12, R63): `offset` is the byte offset from BASE. -/
structure Access where
  agent : Agent
  width : Width
  offset : Nat
  op : BusOp
deriving DecidableEq, Repr

/-- Why an access is a bus error (the five cases of R63). -/
inductive BusError where
  /-- The width is 8, 16 or 64 bits. -/
  | width
  /-- The offset is not a multiple of 4. -/
  | misaligned
  /-- The offset is unmapped (R23). -/
  | unmapped
  /-- The access reads OPREQ. -/
  | writeOnly
  /-- The access writes STATUS, RAW_COUNT, OUT_COUNT, CAPACITY, a RAW entry or an OUT entry. -/
  | readOnly
deriving DecidableEq, Repr

/-- One thing the outside does to the block. The list of them in State is the total order of R72 (log 2). -/
inductive Input where
  /-- A bus access by the host or the driver. -/
  | access (a : Access)
  /-- The host's `poll` statement (R110): read STATUS until BUSY = 0. -/
  | poll
  /-- The reset input is asserted and released (R270; log 9). -/
  | reset
deriving DecidableEq, Repr

/-- What one bus agent has seen (the model's own record; log 6, log 17). -/
structure Port where
  /-- The agent's fault state (R248): the cause of its first bus error. It is never cleared. -/
  fault : Option BusError
  /-- The offset and the data of each completed read, the newest first. -/
  reads : List (Nat × Word)
deriving DecidableEq, Repr

end Sys2Proof.Machine
end

