-- ==== Sys2Proof/Syntax.lean ====
section
/-! DEFINITION. The instruction set: the eight operations a host can write to OPREQ (R91, spec/opcode_table.json). -/

namespace Sys2Proof

/-- One operation of the block (R91). Operands are implicit registers (R94); only ENCODE_REPEAT has operand bits (R90). -/
inductive Instr where
  /-- BUILD_FRAME, OP 0x1 (R125). -/
  | buildFrame
  /-- OBFUSCATE, OP 0x2 (R144). -/
  | obfuscate
  /-- DEOBFUSCATE, OP 0x3 (R145). -/
  | deobfuscate
  /-- CLEAR_RAW, OP 0x4 (R171). -/
  | clearRaw
  /-- ENCODE_REPEAT, OP 0x5, with the FIRST and LAST bits of the word (R172). -/
  | encodeRepeat (first last : Bool)
  /-- CONSOLIDATE, OP 0x6 (R195). -/
  | consolidate
  /-- BUILD_TRANSMISSION, OP 0x7 (R214). -/
  | buildTransmission
  /-- RELEASE, OP 0x8 (R225). -/
  | release
deriving DecidableEq, Repr

end Sys2Proof
end

