-- ==== Sys2Proof/WellFormed.lean ====
section
/-! DEFINITION. Well-formedness: which captured requests are legal (R93), and which instructions (all of them). -/

namespace Sys2Proof

/-- A request is legal when none of the three cases of R93 holds. -/
def Machine.Request.wf (r : Machine.Request) : Bool :=
  !r.rsvd && (1 ≤ r.op.toNat && r.op.toNat ≤ 8) && (r.op == 0x5#4 || (!r.first && !r.last))

/-- Every term of `Instr` is an operation of R96: the only operands are the FIRST and LAST bits, and each value of the
two is a legal word. -/
def Instr.wf : Instr → Bool
  | .buildFrame => true
  | .obfuscate => true
  | .deobfuscate => true
  | .clearRaw => true
  | .encodeRepeat _ _ => true
  | .consolidate => true
  | .buildTransmission => true
  | .release => true

end Sys2Proof
end

