-- ==== Sys2Proof/Decode.lean ====
section
/-! DEFINITION. The decoder of OPREQ words (R90 to R93), the encoder (R96), and the host's `decodeTableWord`. -/

namespace Sys2Proof

open Machine (Request DecodeReject)

/-- What an OPREQ write captures of its word (R38, R40 step 1). -/
def capture (w : Word) : Request :=
  { op := w.extractLsb' 0 4
    first := w.getLsbD 8
    last := w.getLsbD 9
    rsvd := w.extractLsb' 4 4 != 0 || w.extractLsb' 10 22 != 0 }

/-- The decoder of a captured request (R92), total: each of the 16 OP values of R91 is an operation or is rejected by
name (R93). -/
def decode (r : Request) : Except DecodeReject Instr :=
  if r.rsvd then .error .reservedBit
  else if (r.first || r.last) && r.op != 0x5 then .error .strayFlag
  else match r.op.toNat with
    | 0x1 => .ok .buildFrame
    | 0x2 => .ok .obfuscate
    | 0x3 => .ok .deobfuscate
    | 0x4 => .ok .clearRaw
    | 0x5 => .ok (.encodeRepeat r.first r.last)
    | 0x6 => .ok .consolidate
    | 0x7 => .ok .buildTransmission
    | 0x8 => .ok .release
    | _ => .error .reservedOp

/-- The decoder of a 32-bit OPREQ word (R90: exactly one word, no prefixes, no modes). -/
def decodeWord (w : Word) : Except DecodeReject Instr := decode (capture w)

/-- The OPREQ word of an instruction, from the table of R96. -/
def encode : Instr → Word
  | .buildFrame => 0x00000001
  | .obfuscate => 0x00000002
  | .deobfuscate => 0x00000003
  | .clearRaw => 0x00000004
  | .encodeRepeat first last =>
      0x00000005 ||| (if first then 0x00000100 else 0) ||| (if last then 0x00000200 else 0)
  | .consolidate => 0x00000006
  | .buildTransmission => 0x00000007
  | .release => 0x00000008

/-- The eleven legal OPREQ words, in the order of R96. -/
def legalWords : List Word :=
  [0x00000001, 0x00000002, 0x00000003, 0x00000004, 0x00000005, 0x00000105, 0x00000205, 0x00000305
   , 0x00000006, 0x00000007, 0x00000008]

/-- The OPREQ word whose low `nbits` bits are those of `w`, every bit above them 0. -/
def tableWord (nbits w : Nat) : Word := BitVec.ofNat 32 (w % 2 ^ nbits)

/-- The instruction this decoder reads from a row's bits, numbered as spec/opcode_table.json numbers them. -/
def decodeTableWord (nbits w : Nat) : Option Instr :=
  match decodeWord (tableWord nbits w) with
  | .ok i => some i
  | .error _ => none

end Sys2Proof
end

