-- ==== Sys2Proof/Config.lean ====
section
/-! DEFINITION. What a build of the block fixes (R7, R8, R160) and the free values the spec leaves open (R7, R43, R62). -/

namespace Sys2Proof.Config

/-- The eight timing constants in microseconds, in one record as R8 asks (names of R160). -/
structure Timing where
  half : Nat
  wakeH : Nat
  wakeL : Nat
  hsyncH : Nat
  hsyncL : Nat
  ssyncH : Nat
  ssyncL : Nat
  gap : Nat
deriving DecidableEq, Repr

/-- The values of R160. The requester calls the source's literals unaudited (R8, log 18). -/
def timing : Timing :=
  { half := 604, wakeH := 9415, wakeL := 89565, hsyncH := 2416, hsyncL := 2416
    ssyncH := 4550, ssyncL := 604, gap := 30415 }

/-- `CAP` of the reference build (R7): what the CAPACITY register holds in `State.reset`. DESIGN CHOICE (log 5): other
builds are states with another CAPACITY. -/
def cap : Nat := 600

/-- The largest legal `CAP` (R7): one buffer window holds 0x1000 / 4 entries. -/
def maxCap : Nat := 1024

/-- Frame byte 0, `KEY` of R7. -/
def key : Byte := 0xA0

/-- A FREE VALUE (R43, R68; log 4): the data of the `k`-th unspecified read. -/
opaque freeWord : Nat → Word

/-- A FREE VALUE (R7, R40, R282; log 3): one less than the LATENCY drawn as the `k`-th free value, so that every
LATENCY is finite and positive. -/
opaque latencyDraw : Nat → Nat

/-- An OPEN parameter (R62; log 12): BASE in units of 0x4000. -/
opaque baseSlot : Nat

/-- BASE, a multiple of 0x4000 (R62). -/
def base : Nat := 0x4000 * baseSlot

end Sys2Proof.Config
end

