-- ==== Sys2Proof/Machine/State.lean ====
section
/-! DEFINITION. The machine's state (R20, R38), its reset value (R270), and the reasons a step can stop. -/

namespace Sys2Proof.Machine

/-- Why the machine stops with a fault. (A bus error of R63 is no stop: it puts the AGENT in a fault state, `Port.fault`.) -/
inductive Fault where
  /-- Raised by a bus access whose offset is outside 0x0000 to 0x2FFF: no address of the block (R60, R62; log 12). Safe:
  the model stops where another unit of the platform would answer. -/
  | outsideWindow (agent : Agent) (offset : Nat)
deriving DecidableEq, Repr

/-- Why a step has no meaning. -/
inductive Refusal where
  /-- Raised by an arm of `exec` whose instruction has no meaning in the model. No arm raises it now. Safe. -/
  | notModelled (mnemonic : String)
  /-- Raised by a write that R63 allows, made while BUSY = 1: "a model refuses it" (R68, R281; log 8). Safe: the model
  stops where the block's response is unspecified. -/
  | writeWhileBusy (agent : Agent) (offset : Nat)
deriving DecidableEq, Repr

/-- The state: the fields of R20 and R38 with the widths of R20, then the model's own fields. STATUS.BUSY is
"`pending` is not `none`" (R38; log 11). -/
structure State where
  /-- CMD.CODE (R27). -/
  cmd : Nibble
  /-- REPEATS.N (R28). -/
  repeats : BitVec 8
  /-- RC.CODE (R29). -/
  rc : BitVec 16
  /-- ADDR (R30). -/
  addr : Word
  /-- FRAME[0..6] (R33). -/
  frame : Frame
  /-- The RAW entries written since reset, entry 0 first (R35; log 10). -/
  raw : List Word
  /-- RAW_COUNT.COUNT (R31). -/
  rawCount : BitVec 16
  /-- The OUT entries written since reset, entry 0 first (R36; log 10). -/
  out : List Word
  /-- OUT_COUNT.COUNT (R32). -/
  outCount : BitVec 16
  /-- STATUS.HANDED (R26). -/
  handed : Bool
  /-- STATUS.ERR (R25, R240). -/
  err : Nibble
  /-- The pending operation (R38). -/
  pending : Option Request
  /-- CAPACITY, the constant CAP of this build (R34; log 5). -/
  capacity : BitVec 16
  /-- Model's own: the steps of other agents left before the pending operation completes (LATENCY, R40; log 3). -/
  wait : Nat
  /-- Model's own: how many free values have been used (R43, R68; log 4). -/
  draws : Nat
  /-- Model's own: what the outside does next, in the total order of R72 (log 2). -/
  inputs : List Input
  /-- Model's own: what the host has seen (R248; log 6, log 17). -/
  host : Port
  /-- Model's own: what the driver has seen (R248; log 6, log 17). -/
  driver : Port
deriving DecidableEq, Repr

/-- The all-zero frame of reset (R270). -/
def Frame.zero : Frame := ⟨0, 0, 0, 0, 0, 0, 0⟩

/-- A bus agent that has made no access yet (log 6, log 17). -/
def Port.fresh : Port := { fault := none, reads := [] }

/-- The state right after reset (R270): every register 0, CAPACITY = CAP, nothing pending, every RAW and OUT entry
unspecified (none is held). The model's own fields: log 2, log 3, log 4, log 6, log 17. -/
def State.reset : State :=
  { cmd := 0
    repeats := 0
    rc := 0
    addr := 0
    frame := Frame.zero
    raw := []
    rawCount := 0
    out := []
    outCount := 0
    handed := false
    err := 0
    pending := none
    capacity := BitVec.ofNat 16 Config.cap
    wait := 0
    draws := 0
    inputs := []
    host := Port.fresh
    driver := Port.fresh }

end Sys2Proof.Machine
end

