-- ==== Sys2Proof/Machine/Flags.lean ====
section
/-! DEFINITION. The three status flags and the STATUS word (R25, R26, R38, R39, R240). -/

namespace Sys2Proof.Machine

/-- STATUS.BUSY: 1 exactly when `pending` is not `none` (R38). -/
abbrev busy (s : State) : Bool := s.pending.isSome

/-- The number of an error code (R240). -/
def ErrCode.code : ErrCode → Nibble
  | .ok => 0
  | .invalidRepeatCount => 1
  | .capacityExceeded => 2
  | .invalidCommand => 3
  | .illegalOp => 4
  | .outputLocked => 5

/-- The STATUS register (R25): [0] BUSY, [1] HANDED, [3:2] 0, [7:4] ERR, [31:8] 0. -/
def statusWord (s : State) : Word :=
  s.err.zeroExtend 32 <<< 4 ||| (BitVec.ofBool s.handed).zeroExtend 32 <<< 1 ||| (BitVec.ofBool (busy s)).zeroExtend 32

/-- STATUS.ERR <- the code (R243, R244). -/
def setErr (e : ErrCode) (s : State) : State := { s with err := e.code }

/-- STATUS.HANDED <- `b` (R26). -/
def setHanded (b : Bool) (s : State) : State := { s with handed := b }

end Sys2Proof.Machine
end

