-- ==== Sys2Proof/Machine/Ops.lean ====
section
/-! DEFINITION. The operations every meaning shares: pulse entry words (R37), byte lanes (R64), the two buffers, the end of
a completion step (R92), and raising an error (R243), the block's only form of exception (R249). -/

namespace Sys2Proof.Machine

/-- Byte lane `k` of a word: bits [8k+7 : 8k] (R64). -/
def byteLane (k : Nat) (w : Word) : Byte := w.extractLsb' (8 * k) 8

/-- FRAME[i] (R20). -/
def Frame.byte (f : Frame) (i : Fin 7) : Byte :=
  match i with
  | 0 => f.b0
  | 1 => f.b1
  | 2 => f.b2
  | 3 => f.b3
  | 4 => f.b4
  | 5 => f.b5
  | 6 => f.b6

/-- [FRAME[0], ..., FRAME[6]]. -/
def Frame.bytes (f : Frame) : List Byte := [f.b0, f.b1, f.b2, f.b3, f.b4, f.b5, f.b6]

/-- The FRAME0 register (R33): `{FRAME[3], FRAME[2], FRAME[1], FRAME[0]}`. -/
def frame0Word (f : Frame) : Word :=
  f.b3.zeroExtend 32 <<< 24 ||| f.b2.zeroExtend 32 <<< 16 ||| f.b1.zeroExtend 32 <<< 8 ||| f.b0.zeroExtend 32

/-- The FRAME1 register (R33): `{0x00, FRAME[6], FRAME[5], FRAME[4]}`. -/
def frame1Word (f : Frame) : Word :=
  f.b6.zeroExtend 32 <<< 16 ||| f.b5.zeroExtend 32 <<< 8 ||| f.b4.zeroExtend 32

/-- The pulse entry word of a pulse (R37): LEVEL in bit 31, DUR in bits [30:0]. -/
def entry (p : Pulse) : Word :=
  (BitVec.ofBool p.level).zeroExtend 32 <<< 31 ||| (BitVec.ofNat 31 p.dur).zeroExtend 32

/-- The pulse an entry word holds (R37). -/
def pulseOf (w : Word) : Pulse := { level := w.getLsbD 31, dur := (w.extractLsb' 0 31).toNat }

/-- Write the entries `at`, `at + 1`, ... of a buffer; every other entry stays (R172, R195, R214). -/
def storeAt (buf : List Word) (start : Nat) (ws : List Word) : List Word :=
  buf.take start ++ ws ++ buf.drop (start + ws.length)

/-- CAP as a number (R34). -/
abbrev capOf (s : State) : Nat := s.capacity.toNat

/-- FRAME[i] <- f[i] for every i (R125, R144, R145, R214). -/
def putFrame (f : Frame) (s : State) : State := { s with frame := f }

/-- RAW_COUNT <- 0; the entries are not erased (R171). -/
def emptyRaw (s : State) : State := { s with rawCount := 0 }

/-- RAW[start + j] <- entry(ps[j]) for every j, and RAW_COUNT <- start + len(ps) (R172, R214). -/
def storeRaw (start : Nat) (ps : List Pulse) (s : State) : State :=
  { s with raw := storeAt s.raw start (ps.map entry), rawCount := BitVec.ofNat 16 (start + ps.length) }

/-- OUT[j] <- entry(ps[j]) for every j, and OUT_COUNT <- len(ps) (R195, R214). -/
def storeOut (ps : List Pulse) (s : State) : State :=
  { s with out := storeAt s.out 0 (ps.map entry), outCount := BitVec.ofNat 16 ps.length }

/-- `pending <- none`, so BUSY = 0 (R92, R243). -/
def clearPending (s : State) : State := { s with pending := none }

/-- TAKING AN ERROR (R243): `raise Error(code)` writes STATUS.ERR and ends the operation, and does nothing else. There is
no saved state, no vector and no return from it (R249, R250). -/
def raiseError (e : ErrCode) (s : State) : State := clearPending (setErr e s)

/-- The end of an operation that raised no error (R92, R244): ERR <- OK, `pending <- none`. -/
def succeed (s : State) : State := clearPending (setErr .ok s)

end Sys2Proof.Machine
end

