-- ==== Sys2Proof/Machine/Operands.lean ====
section
/-! DEFINITION. Operand assembly (R95): every operation takes its operands from fixed registers, as unsigned numbers. -/

namespace Sys2Proof.Machine

/-- `cmd = reg[CMD].CODE` (R95). -/
abbrev cmdOperand (s : State) : Nibble := s.cmd

/-- `rc = reg[RC].CODE` (R95). -/
abbrev rcOperand (s : State) : BitVec 16 := s.rc

/-- `addr = reg[ADDR]`, all 32 bits (R95); the frame builder uses bits [23:0]. -/
abbrev addrOperand (s : State) : Word := s.addr

/-- `repeats = reg[REPEATS].N` (R95). -/
abbrev repeatsOperand (s : State) : BitVec 8 := s.repeats

/-- `[FRAME[0], ..., FRAME[6]]` (R144, R145, R172). -/
abbrev frameOperand (s : State) : Frame := s.frame

/-- `n0 = reg[RAW_COUNT]` (R172). -/
abbrev rawCountOperand (s : State) : Nat := s.rawCount.toNat

/-- The entry words `[RAW[0], ..., RAW[RAW_COUNT-1]]`. -/
def rawWords (s : State) : List Word := s.raw.take s.rawCount.toNat

/-- The entry words `[OUT[0], ..., OUT[OUT_COUNT-1]]`. -/
def outWords (s : State) : List Word := s.out.take s.outCount.toNat

/-- RAWLIST (R12) as pulses. -/
def rawList (s : State) : List Pulse := (rawWords s).map pulseOf

/-- OUTLIST (R12) as pulses. -/
def outList (s : State) : List Pulse := (outWords s).map pulseOf

end Sys2Proof.Machine
end

