-- ==== Sys2Proof/Machine/Bus.lean ====
section
/-! DEFINITION. The register window (R23, R60 to R69): which accesses are bus errors, what a read returns, what a write
does, issuing an operation (R40 step 1), and the reset input (R270, R271). -/

namespace Sys2Proof.Machine

/-- One past the last offset of the window: it covers 0x0000 to 0x2FFF (R60). -/
def windowSize : Nat := 0x3000

/-- The bus address of an offset (R12, R60). -/
def busAddress (offset : Nat) : Nat := Config.base + offset

/-- The offset at which a bus address falls into the window, if it does (R60, R62). -/
def windowOffset (address : Nat) : Option Nat :=
  if Config.base ≤ address ∧ address < Config.base + windowSize then some (address - Config.base) else none

/-- The register at an offset, in a build with capacity `cap` (the map of R23); `none` is unmapped. -/
def regAt (cap offset : Nat) : Option Reg :=
  if offset % 4 ≠ 0 then none
  else if 0x1000 ≤ offset ∧ offset < 0x1000 + 4 * cap then some (.raw ((offset - 0x1000) / 4))
  else if 0x2000 ≤ offset ∧ offset < 0x2000 + 4 * cap then some (.out ((offset - 0x2000) / 4))
  else match offset with
    | 0x000 => some .opreq
    | 0x004 => some .status
    | 0x008 => some .cmd
    | 0x00C => some .repeats
    | 0x010 => some .rc
    | 0x014 => some .addr
    | 0x018 => some .rawCount
    | 0x01C => some .outCount
    | 0x020 => some .frame0
    | 0x024 => some .frame1
    | 0x028 => some .capacity
    | _ => none

/-- The offset of a register (R23, R35, R36). -/
def Reg.offset : Reg → Nat
  | .opreq => 0x000
  | .status => 0x004
  | .cmd => 0x008
  | .repeats => 0x00C
  | .rc => 0x010
  | .addr => 0x014
  | .rawCount => 0x018
  | .outCount => 0x01C
  | .frame0 => 0x020
  | .frame1 => 0x024
  | .capacity => 0x028
  | .raw j => 0x1000 + 4 * j
  | .out j => 0x2000 + 4 * j

/-- The access column of R23: may the register be read? -/
def Reg.readable : Reg → Bool
  | .opreq => false
  | .status | .cmd | .repeats | .rc | .addr | .rawCount | .outCount | .frame0 | .frame1 | .capacity => true
  | .raw _ | .out _ => true

/-- The access column of R23: may the register be written? -/
def Reg.writable : Reg → Bool
  | .opreq | .cmd | .repeats | .rc | .addr | .frame0 | .frame1 => true
  | .status | .rawCount | .outCount | .capacity => false
  | .raw _ | .out _ => false

/-- The register an access reaches, or the bus error it is (R63). Only the model's record tells the causes apart; where
several hold it names the first in this order (log 14). -/
def busTarget (a : Access) (s : State) : Except BusError Reg :=
  if a.width ≠ .w32 then .error .width
  else if a.offset % 4 ≠ 0 then .error .misaligned
  else match regAt (capOf s) a.offset with
    | none => .error .unmapped
    | some r =>
      match a.op with
      | .read => if r.readable then .ok r else .error .writeOnly
      | .write _ => if r.writable then .ok r else .error .readOnly

/-- A buffer entry below its count (R35, R36); `none` is an unspecified value (R43). -/
def entryAt (buf : List Word) (count : BitVec 16) (j : Nat) : Option Word :=
  if j < count.toNat then buf[j]? else none

/-- What a register holds for a reader while no operation is in flight (R25 to R36); `none` is unspecified (R43). -/
def idleValue (r : Reg) (s : State) : Option Word :=
  match r with
  | .opreq => none
  | .status => some (statusWord s)
  | .cmd => some (s.cmd.zeroExtend 32)
  | .repeats => some (s.repeats.zeroExtend 32)
  | .rc => some (s.rc.zeroExtend 32)
  | .addr => some s.addr
  | .rawCount => some (s.rawCount.zeroExtend 32)
  | .outCount => some (s.outCount.zeroExtend 32)
  | .frame0 => some (frame0Word s.frame)
  | .frame1 => some (frame1Word s.frame)
  | .capacity => some (s.capacity.zeroExtend 32)
  | .raw j => entryAt s.raw s.rawCount j
  | .out j => entryAt s.out s.outCount j

/-- Is a read of the register defined while BUSY = 1 (the list of R68)? -/
def definedWhileBusy (r : Reg) (s : State) : Bool :=
  match r with
  | .status | .capacity | .cmd | .repeats | .rc | .addr => true
  | .outCount | .out _ => s.handed
  | .opreq | .rawCount | .frame0 | .frame1 | .raw _ => false

/-- What a read of a register returns (R66 to R68); `none` is a free draw (R43, R68). -/
def readValue (r : Reg) (s : State) : Option Word :=
  if busy s && !definedWhileBusy r s then none else idleValue r s

/-- Record a read's data for the agent that made it (log 17). -/
def recordRead (agent : Agent) (offset : Nat) (v : Word) (s : State) : State :=
  match agent with
  | .host => { s with host := { s.host with reads := (offset, v) :: s.host.reads } }
  | .driver => { s with driver := { s.driver with reads := (offset, v) :: s.driver.reads } }

/-- Use up one free value (log 4). -/
def nextDraw (s : State) : State := { s with draws := s.draws + 1 }

/-- A read of a register: its value, or a fresh free value of all 32 bits (R43, R68; log 19). No read changes the block
(R67). -/
def readReg (agent : Agent) (offset : Nat) (r : Reg) (s : State) : State :=
  match readValue r s with
  | some v => recordRead agent offset v s
  | none => nextDraw (recordRead agent offset (Config.freeWord s.draws) s)

/-- The bus error response (R248): the block's state does not change and STATUS.ERR is not written; the agent that made
the access enters a fault state, which is never cleared (log 6). -/
def busError (agent : Agent) (cause : BusError) (s : State) : State :=
  match agent with
  | .host => { s with host := { s.host with fault := s.host.fault <|> some cause } }
  | .driver => { s with driver := { s.driver with fault := s.driver.fault <|> some cause } }

/-- Issue (R40 step 1): capture the request, so BUSY = 1, and draw its LATENCY (log 3). -/
def issue (w : Word) (s : State) : State :=
  nextDraw { s with pending := some (capture w), wait := Config.latencyDraw s.draws + 1 }

/-- A write of a writable register while BUSY = 0 (R24, R27 to R30, R33, R67). Reserved bits are ignored (R23). -/
def writeReg (r : Reg) (v : Word) (s : State) : State :=
  match r with
  | .opreq => issue v s
  | .cmd => { s with cmd := v.extractLsb' 0 4 }
  | .repeats => { s with repeats := v.extractLsb' 0 8 }
  | .rc => { s with rc := v.extractLsb' 0 16 }
  | .addr => { s with addr := v }
  | .frame0 =>
      putFrame { s.frame with b0 := byteLane 0 v, b1 := byteLane 1 v, b2 := byteLane 2 v, b3 := byteLane 3 v } s
  | .frame1 => putFrame { s.frame with b4 := byteLane 0 v, b5 := byteLane 1 v, b6 := byteLane 2 v } s
  | .status | .rawCount | .outCount | .capacity | .raw _ | .out _ => s

/-- One bus access of the host or the driver. The block does not tell the agents apart (R253; log 13). An access R63
forbids is a bus error whether BUSY is 0 or 1 (log 7); a write it allows is refused while BUSY = 1 (R68, R281; log 8). -/
def busAccess (a : Access) (s : State) : Host.Outcome State Fault Refusal :=
  if a.offset < windowSize then
    match busTarget a s with
    | .error cause => .next (busError a.agent cause s)
    | .ok r =>
      match a.op with
      | .read => .next (readReg a.agent a.offset r s)
      | .write v =>
        if busy s then .refused (.writeWhileBusy a.agent a.offset) else .next (writeReg r v s)
  else .fault (.outsideWindow a.agent a.offset)

/-- The reset input (R270, R271): the block's whole state becomes the reset state, an operation in flight and a handoff
are abandoned. The build's CAP, the agents' own records, the inputs to come and the draw counter are not the block's
state (log 5, log 9). -/
def resetBlock (s : State) : State :=
  { State.reset with
    capacity := s.capacity
    draws := s.draws
    inputs := s.inputs
    host := s.host
    driver := s.driver }

end Sys2Proof.Machine
end

