-- ==== Sys2Proof/Machine/Consolidator.lean ====
section
/-! DEFINITION. The OOK pulse consolidator (44_consolidator.md): CONSOLIDATE. -/

namespace Sys2Proof.Machine

/-- One step of the forward pass of R190. `out` is the output so far with the LAST emitted pulse first: a pulse of the same
level is added into it, any other is emitted as a new one. -/
def mergePulse (out : List Pulse) (p : Pulse) : List Pulse :=
  match out with
  | [] => [p]
  | q :: rest =>
    if q.level = p.level then { q with dur := q.dur + p.dur } :: rest else p :: q :: rest

/-- `consolidate(raw)` (R190): a single forward pass. -/
def consolidate (raw : List Pulse) : List Pulse := (raw.foldl mergePulse []).reverse

/-- CONSOLIDATE (R195): OutputLocked, the check of R196, or OUT, OUT_COUNT and HANDED written. -/
def execConsolidate (s : State) : Host.Outcome State Fault Refusal :=
  if s.handed then .next (raiseError .outputLocked s)
  else
    let c := consolidate (rawList s)
    if c.length > capOf s then .next (raiseError .capacityExceeded s)
    else .next (succeed (setHanded true (storeOut c s)))

end Sys2Proof.Machine
end

