-- ==== Sys2Proof/Machine/FrameBuilder.lean ====
section
/-! DEFINITION. The frame builder and its checksum (41_frame_builder.md): BUILD_FRAME. -/

namespace Sys2Proof.Machine

/-- `hi(b) = b[7:4]` (R10). -/
def hiNibble (b : Byte) : Nibble := b.extractLsb' 4 4

/-- `lo(b) = b[3:0]` (R10). -/
def loNibble (b : Byte) : Nibble := b.extractLsb' 0 4

/-- The 4-bit code of a command (R100). -/
def Command.code : Command → Nibble
  | .stop => 0x1
  | .up => 0x2
  | .down => 0x4
  | .prog => 0x8

/-- `valid_cmd(c)`: Stop, Up, Down or Prog (R100). -/
def validCmd (c : Nibble) : Bool := c == 0x1 || c == 0x2 || c == 0x4 || c == 0x8

/-- `checksum(f)`: the XOR-fold of the 14 nibbles, byte 0 first (R122). -/
def checksum (f : Frame) : Nibble :=
  f.bytes.foldl (fun c b => c ^^^ hiNibble b ^^^ loNibble b) 0

/-- `nibble_xor`: the checksum function applied to a finished frame (R123). -/
def nibbleXor (f : Frame) : Nibble := checksum f

/-- The frame with the lower nibble of byte 1 still 0: the first seven assignments of R121. -/
def frameBody (cmd : Nibble) (rc : BitVec 16) (addr : Word) : Frame :=
  { b0 := Config.key
    b1 := cmd.zeroExtend 8 <<< 4
    b2 := rc.extractLsb' 8 8
    b3 := rc.extractLsb' 0 8
    b4 := addr.extractLsb' 16 8
    b5 := addr.extractLsb' 8 8
    b6 := addr.extractLsb' 0 8 }

/-- `build_frame(cmd, rc, addr)` (R121): the checksum is OR-ed into the lower nibble of byte 1. -/
def buildFrame (cmd : Nibble) (rc : BitVec 16) (addr : Word) : Frame :=
  let f := frameBody cmd rc addr
  { f with b1 := f.b1 ||| (checksum f).zeroExtend 8 }

/-- BUILD_FRAME (R125): InvalidCommand, or the unobfuscated frame into FRAME. -/
def execBuildFrame (s : State) : Host.Outcome State Fault Refusal :=
  if validCmd (cmdOperand s) then
    .next (succeed (putFrame (buildFrame (cmdOperand s) (rcOperand s) (addrOperand s)) s))
  else
    .next (raiseError .invalidCommand s)

end Sys2Proof.Machine
end

