-- ==== Sys2Proof/Machine/Obfuscator.lean ====
section
/-! DEFINITION. The byte-chain XOR obfuscator (42_obfuscator.md): OBFUSCATE, DEOBFUSCATE. -/

namespace Sys2Proof.Machine

/-- `obfuscate(f)` (R140): for i = 1, ..., 6 in this order, `o[i] = o[i] ^ o[i-1]` with `o[i-1]` already updated. -/
def obfuscate (f : Frame) : Frame :=
  let o0 := f.b0
  let o1 := f.b1 ^^^ o0
  let o2 := f.b2 ^^^ o1
  let o3 := f.b3 ^^^ o2
  let o4 := f.b4 ^^^ o3
  let o5 := f.b5 ^^^ o4
  let o6 := f.b6 ^^^ o5
  ⟨o0, o1, o2, o3, o4, o5, o6⟩

/-- `deobfuscate(o)` (R141): every step reads the original bytes of `o`. -/
def deobfuscate (o : Frame) : Frame :=
  { b0 := o.b0
    b1 := o.b1 ^^^ o.b0
    b2 := o.b2 ^^^ o.b1
    b3 := o.b3 ^^^ o.b2
    b4 := o.b4 ^^^ o.b3
    b5 := o.b5 ^^^ o.b4
    b6 := o.b6 ^^^ o.b5 }

/-- OBFUSCATE (R144): FRAME in place; no error. -/
def execObfuscate (s : State) : Host.Outcome State Fault Refusal :=
  .next (succeed (putFrame (obfuscate (frameOperand s)) s))

/-- DEOBFUSCATE (R145): FRAME in place; no error. -/
def execDeobfuscate (s : State) : Host.Outcome State Fault Refusal :=
  .next (succeed (putFrame (deobfuscate (frameOperand s)) s))

end Sys2Proof.Machine
end

