-- ==== Sys2Proof/Machine/TimingEncoder.lean ====
section
/-! DEFINITION. The Manchester encoder and timing sequence generator (43_timing_encoder.md): CLEAR_RAW, ENCODE_REPEAT. -/

namespace Sys2Proof.Machine

/-- A high pulse. -/
def high (d : Nat) : Pulse := { level := true, dur := d }

/-- A low pulse. -/
def low (d : Nat) : Pulse := { level := false, dur := d }

/-- `manchester_bit(b)` (R161): 1 is low then high, 0 is high then low, each half `HALF` long. -/
def manchesterBit (b : Bool) : List Pulse :=
  if b then [low Config.timing.half, high Config.timing.half]
  else [high Config.timing.half, low Config.timing.half]

/-- The bits of a byte in transmission order: bit 7 first (R162). -/
def byteBits (b : Byte) : List Bool := [7, 6, 5, 4, 3, 2, 1, 0].map b.getLsbD

/-- The 56-bit payload stream in transmission order: byte 0 first, each byte MSB first (R162, `s` of R215). -/
def payloadBits (o : Frame) : List Bool := o.bytes.flatMap byteBits

/-- `manchester(o)` (R162). -/
def manchester (o : Frame) : List Pulse := (payloadBits o).flatMap manchesterBit

/-- `wakeup` (R163). -/
def wakeup : List Pulse := [high Config.timing.wakeH, low Config.timing.wakeL]

/-- `hsync(k)` (R163): `k` hardware-sync pairs. -/
def hsync (k : Nat) : List Pulse :=
  (List.replicate k [high Config.timing.hsyncH, low Config.timing.hsyncL]).flatten

/-- `ssync` (R163). -/
def ssync : List Pulse := [high Config.timing.ssyncH, low Config.timing.ssyncL]

/-- `gap` (R163). -/
def gap : List Pulse := [low Config.timing.gap]

/-- The framing before the payload: steps 1 to 3 of R164, `prefix` of R167. -/
def framing (first : Bool) : List Pulse :=
  (if first then wakeup ++ hsync 2 else hsync 7) ++ ssync

/-- `encode_repeat(o, first, last)` (R164). -/
def encodeRepeat (o : Frame) (first last : Bool) : List Pulse :=
  framing first ++ manchester o ++ (if last then [] else gap)

/-- `raw_len(first, last)` (R165). -/
def rawLen (first last : Bool) : Nat :=
  (if first then 2 + 4 else 14) + 2 + 112 + (if last then 0 else 1)

/-- CLEAR_RAW (R171): RAW_COUNT <- 0; allowed while HANDED = 1; no error. -/
def execClearRaw (s : State) : Host.Outcome State Fault Refusal :=
  .next (succeed (emptyRaw s))

/-- ENCODE_REPEAT (R170, R172): CapacityExceeded before anything is written, or the repeat appended to RAW. -/
def execEncodeRepeat (first last : Bool) (s : State) : Host.Outcome State Fault Refusal :=
  let p := encodeRepeat (frameOperand s) first last
  let n0 := rawCountOperand s
  if n0 + p.length > capOf s then .next (raiseError .capacityExceeded s)
  else .next (succeed (storeRaw n0 p s))

end Sys2Proof.Machine
end

