-- ==== Sys2Proof/Machine/Orchestrator.lean ====
section
/-! DEFINITION. The waveform orchestrator, the handoff release and the rolling code (45_orchestrator.md):
BUILD_TRANSMISSION, RELEASE, `next_rc`. -/

namespace Sys2Proof.Machine

/-- `tx_raw_len(n)` for n >= 1 (R210); the spec gives no value at 0 and none is used (log 20). -/
def txRawLen (n : Nat) : Nat := if n ≤ 1 then 120 else 121 + 129 * (n - 2) + 128

/-- `max_repeats(CAP)` (R211). -/
def maxRepeats (cap : Nat) : Nat := if cap < 120 then 0 else (cap - 120) / 129 + 1

/-- The repeat loop (R213): repeats 0 to n-1 of the same obfuscated frame, the flags saying first and last. -/
def repeatsOf (o : Frame) (n : Nat) : List Pulse :=
  (List.range n).flatMap fun i => encodeRepeat o (i == 0) (i == n - 1)

/-- `build_transmission(cmd, rc, addr, n)` (R212), its checks in the order of R245. -/
def buildTransmission (cap : Nat) (cmd : Nibble) (rc : BitVec 16) (addr : Word) (n : BitVec 8) :
    Except ErrCode (Frame × List Pulse × List Pulse) :=
  if !validCmd cmd then .error .invalidCommand
  else if n = 0 then .error .invalidRepeatCount
  else if txRawLen n.toNat > cap then .error .capacityExceeded
  else
    let o := obfuscate (buildFrame cmd rc addr)
    let raw := repeatsOf o n.toNat
    let out := consolidate raw
    if out.length > cap then .error .capacityExceeded else .ok (o, raw, out)

/-- BUILD_TRANSMISSION (R214): the old RAW contents are replaced, RAW_COUNT is set. -/
def execBuildTransmission (s : State) : Host.Outcome State Fault Refusal :=
  if s.handed then .next (raiseError .outputLocked s)
  else
    match buildTransmission (capOf s) (cmdOperand s) (rcOperand s) (addrOperand s) (repeatsOperand s) with
    | .error e => .next (raiseError e s)
    | .ok (o, raw, out) =>
      .next (succeed (setHanded true (storeOut out (storeRaw 0 raw (putFrame o s)))))

/-- RELEASE (R225): HANDED <- 0; OUT and OUT_COUNT keep their values; no error. -/
def execRelease (s : State) : Host.Outcome State Fault Refusal :=
  .next (succeed (setHanded false s))

/-- `next_rc(rc)` (R220): the host's rolling-code successor, which skips 0. The block does not compute it. -/
def nextRc (rc : BitVec 16) : BitVec 16 := if rc = 0xFFFF then 0x0001 else rc + 1

end Sys2Proof.Machine
end

