-- ==== Sys2Proof/Machine/Dispatch.lean ====
section
/-! DEFINITION. One arm per operation: its completion rule (R92). -/

namespace Sys2Proof.Machine

def exec (i : Instr) (s : State) : Host.Outcome State Fault Refusal :=
  match i with
  | .buildFrame => Sys2Proof.Machine.execBuildFrame s
  | .obfuscate => Sys2Proof.Machine.execObfuscate s
  | .deobfuscate => Sys2Proof.Machine.execDeobfuscate s
  | .clearRaw => Sys2Proof.Machine.execClearRaw s
  | .encodeRepeat first last => Sys2Proof.Machine.execEncodeRepeat first last s
  | .consolidate => Sys2Proof.Machine.execConsolidate s
  | .buildTransmission => Sys2Proof.Machine.execBuildTransmission s
  | .release => Sys2Proof.Machine.execRelease s

end Sys2Proof.Machine
end

