-- ==== Sys2Proof/Machine/Engine.lean ====
section
/-! DEFINITION. The agents' steps (R17): the engine's completion (R40 step 2, R92) and the next thing the outside does. -/

namespace Sys2Proof.Machine

/-- The completion step (R92): an illegal request raises IllegalOp and nothing else (R93), a legal one is performed. -/
def complete (r : Request) (s : State) : Host.Outcome State Fault Refusal :=
  match decode r with
  | .ok i => exec i s
  | .error _ => .next (raiseError .illegalOp s)

/-- One step of the other agents has passed since the issue (R40; log 3). -/
def tick (s : State) : State := { s with wait := s.wait - 1 }

/-- The next input leaves the list (log 2). -/
def dropInput (s : State) : State := { s with inputs := s.inputs.tail }

/-- The host's `rd STATUS` inside `poll` (R110). -/
def pollRead (s : State) : State := readReg .host Reg.status.offset .status s

/-- A step of the outside: the next input in the total order of R72. With no input left no agent acts and the block
does nothing (R258). A `poll` stays until its read shows BUSY = 0 (R110; log 16). -/
def inputStep (s : State) : Host.Outcome State Fault Refusal :=
  match s.inputs with
  | [] => .next s
  | .access a :: _ => busAccess a (dropInput s)
  | .poll :: _ => .next (pollRead (if busy s then s else dropInput s))
  | .reset :: _ => .next (resetBlock (dropInput s))

/-- One step of the machine: the engine completes the pending operation once its LATENCY is over, otherwise the outside
acts (R40, R72; log 3). -/
def machineStep (s : State) : Host.Outcome State Fault Refusal :=
  match s.pending with
  | none => inputStep s
  | some r => if s.wait = 0 then complete r s else inputStep (tick s)

/-- A request whose issue and LATENCY are past: the next step completes it (log 1). -/
def readyRequest (r : Request) (s : State) : State := { s with pending := some r, wait := 0 }

/-- Operations completed one after the other, each issued when the one before it is done. -/
def execAll : List Instr → State → Host.Outcome State Fault Refusal
  | [], s => .next s
  | i :: is, s =>
    match exec i s with
    | .next t => execAll is t
    | .fault f => .fault f
    | .refused r => .refused r

end Sys2Proof.Machine
end

