-- ==== Sys2Proof/Machine/Step.lean ====
section
/-! DEFINITION. The step of the machine, and `withFetchWord`. -/

namespace Sys2Proof.Machine

/-- One step of the machine (Machine/Engine.lean). -/
def step (s : State) : Host.Outcome State Fault Refusal := machineStep s

/-- `s` with the operation whose OPREQ word has the low `nbits` bits of `w` issued and its LATENCY past, so that the very
next step completes it (log 1). -/
def State.withFetchWord (s : State) (nbits w : Nat) : State := readyRequest (capture (tableWord nbits w)) s

end Sys2Proof.Machine
end

