-- ==== Sys2Proof/Machine/Assembler.lean ====
section
/-! DEFINITION. The notation of host programs (R110 to R112) and the driver's replay reads (R69): each statement as the
inputs it puts before the machine. -/

namespace Sys2Proof.Machine

/-- A statement of a host program: the base statements of R110, the operation mnemonics of R111 (one for every operation,
ENCODE_REPEAT with its `first` and `last`) and the pseudo-instructions of R112. A command name stands for its code
(`Command.code`, R100). -/
inductive Stmt where
  | wr (r : Reg) (v : Word)
  | rd (r : Reg)
  | poll
  | op (i : Instr)
  | frame (f : Frame)
  | tx (cmd : Nibble) (rc : BitVec 16) (addr : Word) (n : BitVec 8)
  | mkframe (cmd : Nibble) (rc : BitVec 16) (addr : Word)
deriving DecidableEq, Repr

/-- `MemWrite(offset(r), 4, v)` by the host (R12, R110). -/
def wrInput (r : Reg) (v : Word) : Input :=
  .access { agent := .host, width := .w32, offset := r.offset, op := .write v }

/-- `MemRead(offset(r), 4)` by an agent (R12, R110). -/
def rdInput (agent : Agent) (r : Reg) : Input :=
  .access { agent := agent, width := .w32, offset := r.offset, op := .read }

/-- An operation mnemonic: write its OPREQ word (R96), then poll (R111). -/
def opInputs (i : Instr) : List Input := [wrInput .opreq (encode i), .poll]

/-- The parameter writes that `tx` and `mkframe` begin with (R112). -/
def paramInputs (cmd : Nibble) (rc : BitVec 16) (addr : Word) : List Input :=
  [wrInput .cmd (cmd.zeroExtend 32), wrInput .rc (rc.zeroExtend 32), wrInput .addr addr]

/-- The inputs of one statement (R110 to R112). -/
def Stmt.inputs : Stmt → List Input
  | .wr r v => [wrInput r v]
  | .rd r => [rdInput .host r]
  | .poll => [.poll]
  | .op i => opInputs i
  | .frame f => [wrInput .frame0 (frame0Word f), wrInput .frame1 (frame1Word f)]
  | .tx cmd rc addr n =>
      paramInputs cmd rc addr ++ [wrInput .repeats (n.zeroExtend 32)] ++ opInputs .buildTransmission
  | .mkframe cmd rc addr => paramInputs cmd rc addr ++ opInputs .buildFrame

/-- The inputs of a host program (R110). -/
def assemble (prog : List Stmt) : List Input := prog.flatMap Stmt.inputs

/-- The driver's replay of `n` pulses (R69): OUT_COUNT, then OUT[0] to OUT[n-1] in order. -/
def replayInputs (n : Nat) : List Input :=
  rdInput .driver .outCount :: (List.range n).map fun j => rdInput .driver (.out j)

/-- The decomposed path of an `n`-repeat transmission, for n >= 1 (R219). -/
def decomposed (n : Nat) : List Instr :=
  [.buildFrame, .obfuscate, .clearRaw]
    ++ (List.range n).map (fun i => .encodeRepeat (i == 0) (i == n - 1))
    ++ [.consolidate]

end Sys2Proof.Machine
end

