-- ==== Sys2Proof/Safety.lean ====
section
/-! DEFINITION. What claims take as a safe run and as the duties of the agents outside the block (R217, R248, R259, R275 to
R279), and the predicates the invariants of R41 are stated with. -/

namespace Sys2Proof.Machine

/-- No agent has met a bus error: the premise R248 names. -/
abbrev NoBusError (s : State) : Prop := s.host.fault = none ∧ s.driver.fault = none

/-- No operation is in flight, so every write R63 allows has a meaning (R68, R275). -/
abbrev Idle (s : State) : Prop := s.pending = none

/-- The engine's next step completes `r` (R40). -/
abbrev Ready (r : Request) (s : State) : Prop := s.pending = some r ∧ s.wait = 0

/-- The output is handed off by an operation that completed without error: the driver may begin (R259, R276). -/
abbrev HandedOff (s : State) : Prop := s.pending = none ∧ s.handed = true ∧ s.err = ErrCode.ok.code

/-- The host's duties on REPEATS and RC before BUILD_TRANSMISSION (R217, R221, R222). -/
abbrev TransmissionDuty (s : State) : Prop :=
  1 ≤ s.repeats.toNat ∧ s.repeats.toNat ≤ maxRepeats (capOf s) ∧ s.rc ≠ 0

/-- No two adjacent pulses have the same level (R194). -/
def Alternates : List Pulse → Prop
  | [] => True
  | [_] => True
  | p :: q :: rest => p.level ≠ q.level ∧ Alternates (q :: rest)

/-- The sum of the durations of a pulse list (R166, R191, R216). -/
def totalDur (ps : List Pulse) : Nat := (ps.map Pulse.dur).sum

/-- A legal build (R7): CAP from 1 to 1024. -/
abbrev LegalBuild (s : State) : Prop := 1 ≤ capOf s ∧ capOf s ≤ Config.maxCap

/-- Both counts are within CAP, and the entries below them have been written (R35, R36, R41). -/
abbrev CountsInRange (s : State) : Prop :=
  s.rawCount.toNat ≤ s.raw.length ∧ s.raw.length ≤ capOf s ∧
    s.outCount.toNat ≤ s.out.length ∧ s.out.length ≤ capOf s

/-- RAWLIST is a sequence of whole repeats (R170: "RAW never holds a cut-short repeat"). -/
def WholeRepeats (s : State) : Prop :=
  ∃ rs : List (Frame × Bool × Bool),
    rawWords s = (rs.flatMap fun r => encodeRepeat r.1 r.2.1 r.2.2).map entry

/-- OUTLIST alternates in level (R194). -/
def OutAlternates (s : State) : Prop := Alternates (outList s)

/-- Every duration of OUTLIST is one the block can form: 604 to 89565 (R198, 90_conflicts.md C7). -/
abbrev OutDurationsBounded (s : State) : Prop := ∀ p ∈ outList s, 604 ≤ p.dur ∧ p.dur ≤ 89565

/-- The block's own part of a state: the model's fields that belong to the outside or to the draws are set aside. -/
def blockOf (s : State) : State :=
  { s with wait := 0, draws := 0, inputs := [], host := Port.fresh, driver := Port.fresh }

/-- The number of adjacent positions of a bit stream with different values (`T` of R215). -/
def changes (bs : List Bool) : Nat := ((bs.zip bs.tail).filter fun p => p.1 != p.2).length

/-- The number of adjacent pulses of equal level (`m` of R191). -/
def equalNeighbours (ps : List Pulse) : Nat :=
  ((ps.zip ps.tail).filter fun p => p.1.level == p.2.level).length

/-- The number of pulses equal to `p`. -/
def occurrences (p : Pulse) (ps : List Pulse) : Nat := (ps.filter fun q => q == p).length

/-- STATUS.ERR holds one of the six codes (R240). -/
abbrev ErrInRange (s : State) : Prop := s.err.toNat ≤ 5

/-- LATENCY is counted only while an operation is in flight (the model's own field `wait`, log 3). -/
abbrev WaitForPendingOnly (s : State) : Prop := s.pending = none → s.wait = 0

end Sys2Proof.Machine
end

