-- ==== Sys2Proof/Certificates/Slice0/Obligations.lean ====
section
/-! DEFINITION. The statements for the provers. A state `{ s with ... }` on the right of an equation is the whole frame:
every field not named keeps its value. Where a statement rests on the spec's own inference or on a choice of the model, its
docstring says so. -/

open Sys2Proof Sys2Proof.Machine

/-! ## Encoding -/

/-- R91: each OP value the map names is that operation, in the word that has every other bit 0. -/
def Obligations.OpcodeMapWordsDecode : Prop :=
  decodeWord 0x00000001#32 = .ok .buildFrame ∧ decodeWord 0x00000002#32 = .ok .obfuscate
    ∧ decodeWord 0x00000003#32 = .ok .deobfuscate ∧ decodeWord 0x00000004#32 = .ok .clearRaw
    ∧ decodeWord 0x00000005#32 = .ok (.encodeRepeat false false)
    ∧ decodeWord 0x00000105#32 = .ok (.encodeRepeat true false)
    ∧ decodeWord 0x00000205#32 = .ok (.encodeRepeat false true)
    ∧ decodeWord 0x00000305#32 = .ok (.encodeRepeat true true)
    ∧ decodeWord 0x00000006#32 = .ok .consolidate ∧ decodeWord 0x00000007#32 = .ok .buildTransmission
    ∧ decodeWord 0x00000008#32 = .ok .release
    ∧ ∀ op : Nibble, (op = 0x0 ∨ 0x9 ≤ op) → decodeWord (op.zeroExtend 32) = .error .reservedOp

/-- Decode and encode agree in both directions, over all 2^32 words: a word decodes to `i` exactly when it is the word of
`i` (the spec's own inference after its list of legal words: "Every other 32-bit word is illegal"). -/
def Obligations.WordDecodesIffItIsTheEncoding : Prop :=
  ∀ (w : Word) (i : Instr), decodeWord w = .ok i ↔ encode i = w

/-- The illegal words of R93, over all 2^32 words: exactly these decode to no operation. -/
def Obligations.IllegalWordsAreExactly : Prop :=
  ∀ w : Word, (∀ i, decodeWord w ≠ .ok i) ↔
    (w.extractLsb' 0 4 = 0x0 ∨ 0x9 ≤ w.extractLsb' 0 4)
      ∨ (∃ k, ((4 ≤ k ∧ k ≤ 7) ∨ (10 ≤ k ∧ k ≤ 31)) ∧ w.getLsbD k = true)
      ∨ ((w.getLsbD 8 = true ∨ w.getLsbD 9 = true) ∧ w.extractLsb' 0 4 ≠ 0x5)

/-! ## The step -/

/-- A step runs the decoded instruction: once the LATENCY of a pending request is over, the step is `exec` of the
instruction the request decodes to (how a request becomes ready is the model's, log 1 and log 3). -/
def Obligations.StepRunsTheDecodedInstruction : Prop :=
  (∀ (s : State) (r : Request) (i : Instr), s.pending = some r → s.wait = 0 → decode r = .ok i → step s = exec i s)
    ∧ ∀ (s : State) (nbits w : Nat) (i : Instr), decodeTableWord nbits w = some i →
        ∃ r, decode r = .ok i
          ∧ step (s.withFetchWord nbits w) = exec i { s with pending := some r, wait := 0 }

/-- R93, at the step that completes the request: IllegalOp is code 4 (R240), and nothing else changes. -/
def Obligations.IllegalRequestOnlyReportsIllegalOp : Prop :=
  ∀ (s : State) (w : Word), s.pending = some (capture w) → s.wait = 0 →
    ((w.extractLsb' 0 4 = 0x0 ∨ 0x9 ≤ w.extractLsb' 0 4)
      ∨ w.extractLsb' 4 4 ≠ 0 ∨ w.extractLsb' 10 22 ≠ 0
      ∨ ((w.getLsbD 8 = true ∨ w.getLsbD 9 = true) ∧ w.extractLsb' 0 4 ≠ 0x5)) →
    step s = .next { s with err := 4, pending := none }

/-- While no request is ready, a step is the next input, in the order of the list (the model's choice, log 2, log 3). The
premise is an invariant of the model (`StepKeepsWaitForPendingOnly`). The form of the poll is the model's (log 16), its
record too (log 17), and so is that a reset is one step (log 9). -/
def Obligations.StepTakesTheNextInput : Prop :=
  ∀ s : State, WaitForPendingOnly s → (s.pending ≠ none → s.wait ≠ 0) →
    let t : State := { s with wait := s.wait - 1, inputs := s.inputs.tail }
    (s.inputs = [] → step s = .next t)
      ∧ (∀ a, s.inputs.head? = some (.access a) → step s = busAccess a t)
      ∧ (s.inputs.head? = some .reset → step s = .next (resetBlock t))
      ∧ (s.inputs.head? = some .poll → step s = .next { s with
          wait := s.wait - 1
          inputs := if s.pending = none then s.inputs.tail else s.inputs
          host := { s.host with reads := (0x004, statusWord s) :: s.host.reads } })

/-- The issue step of R40, with the LATENCY the model draws (log 3): a 32-bit write of OPREQ while BUSY = 0 captures the
request and changes nothing else of the block. R40 says "a host bus write"; that a write by the driver does the same is
the model's reading of R76 and R253 (log 13). -/
def Obligations.OpreqWriteIssuesAnOperation : Prop :=
  ∀ (s : State) (agent : Agent) (w : Word), s.pending = none →
    ∃ t, busAccess { agent := agent, width := .w32, offset := 0x000, op := .write w } s = .next t
      ∧ blockOf t = { blockOf s with
          pending := some
            { op := w.extractLsb' 0 4, first := w.getLsbD 8, last := w.getLsbD 9
              rsvd := decide (w.extractLsb' 4 4 ≠ 0 ∨ w.extractLsb' 10 22 ≠ 0) } }
      ∧ 1 ≤ t.wait ∧ busy t = true
      ∧ t = { s with pending := t.pending, wait := t.wait, draws := t.draws }

/-- A `poll` of an operation in flight ends: after LATENCY reads of BUSY = 1, the completion and one read of BUSY = 0 (the
model's polling, log 3 and log 16). What the outside does otherwise: `PendingOperationCompletes`. -/
def Obligations.PollEndsAfterTheLatency : Prop :=
  ∀ (s : State) (r : Request) (rest : List Input), s.pending = some r → s.inputs = .poll :: rest →
    ∃ t u, Machine.complete r { s with
          wait := 0
          host := { s.host with reads := List.replicate s.wait (0x004, statusWord s) ++ s.host.reads } } = .next t
      ∧ t.pending = none
      ∧ Sys2Proof.core.run (s.wait + 2) s = .next u
      ∧ u = { t with inputs := rest, host := { t.host with reads := (0x004, statusWord t) :: t.host.reads } }

/-- An operation in flight completes after its LATENCY (R40) while the outside makes reads, polls or nothing: until then
no step changes the block, and the next step is the completion. In the model a step in which the outside does nothing
counts too (log 3), a bus error is a step that goes on (log 6), and a write or a reset is set aside: the one is a bus error or
refused (`BusErrorsAreExactly`, `WriteWhileBusyIsRefused`), the other abandons the operation
(`ResetInputResetsTheBlock`). -/
def Obligations.PendingOperationCompletes : Prop :=
  ∀ (s : State) (r : Request), s.pending = some r →
    (∀ i ∈ s.inputs.take s.wait, i = .poll ∨ ∃ a, i = .access a ∧ a.offset < 0x3000 ∧ a.op = .read) →
    (∀ k, k ≤ s.wait → ∃ t, Sys2Proof.core.run k s = .next t ∧ blockOf t = blockOf s ∧ t.wait = s.wait - k)
    ∧ ∃ t u, Sys2Proof.core.run s.wait s = .next t ∧ Machine.complete r t = .next u
        ∧ Sys2Proof.core.run (s.wait + 1) s = .next u ∧ u.pending = none

/-- When a step stops, over every state: with a fault exactly at an access outside the window (log 12), with a refusal exactly
at a write that R63 allows made while BUSY = 1 (log 7, log 8). No operation stops. -/
def Obligations.StepStopsOnlyAtTheBus : Prop :=
  ∀ s : State,
    (∀ f, step s = .fault f ↔ ∃ a, s.inputs.head? = some (.access a) ∧ (s.pending = none ∨ s.wait ≠ 0)
      ∧ 0x3000 ≤ a.offset ∧ f = .outsideWindow a.agent a.offset)
    ∧ (∀ x, step s = .refused x ↔ ∃ a v r, s.inputs.head? = some (.access a) ∧ s.pending ≠ none ∧ s.wait ≠ 0
      ∧ a.offset < 0x3000 ∧ a.op = .write v ∧ busTarget a s = .ok r ∧ x = .writeWhileBusy a.agent a.offset)

/-! ## Frame builder -/

/-- R125, with the bytes of R121 and the checksum of R122. -/
def Obligations.BuildFrameWritesTheFrame : Prop :=
  decodeWord 0x00000001#32 = .ok .buildFrame ∧
  ∀ s : State,
    ((s.cmd = 0x1 ∨ s.cmd = 0x2 ∨ s.cmd = 0x4 ∨ s.cmd = 0x8) →
      exec .buildFrame s = .next { s with
        frame :=
          { b0 := 0xA0
            b1 := s.cmd.zeroExtend 8 <<< 4 ||| (0xA#4 ^^^ s.cmd
              ^^^ s.rc.extractLsb' 12 4 ^^^ s.rc.extractLsb' 8 4 ^^^ s.rc.extractLsb' 4 4 ^^^ s.rc.extractLsb' 0 4
              ^^^ s.addr.extractLsb' 20 4 ^^^ s.addr.extractLsb' 16 4 ^^^ s.addr.extractLsb' 12 4
              ^^^ s.addr.extractLsb' 8 4 ^^^ s.addr.extractLsb' 4 4 ^^^ s.addr.extractLsb' 0 4).zeroExtend 8
            b2 := s.rc.extractLsb' 8 8
            b3 := s.rc.extractLsb' 0 8
            b4 := s.addr.extractLsb' 16 8
            b5 := s.addr.extractLsb' 8 8
            b6 := s.addr.extractLsb' 0 8 }
        err := 0
        pending := none })
    ∧ (¬ (s.cmd = 0x1 ∨ s.cmd = 0x2 ∨ s.cmd = 0x4 ∨ s.cmd = 0x8) →
      exec .buildFrame s = .next { s with err := 3, pending := none })

/-- The laws of every built frame (the spec's own inference; the first is the source's "the XOR of all 14 nibbles of the
frame ... is always zero"). -/
def Obligations.BuiltFrameLaws : Prop :=
  ∀ (cmd : Nibble) (rc : BitVec 16) (addr : Word),
    nibbleXor (buildFrame cmd rc addr) = 0
      ∧ (buildFrame cmd rc addr).b1 >>> 4 = cmd.zeroExtend 8
      ∧ (buildFrame cmd rc addr).b0 = 0xA0
      ∧ buildFrame cmd rc addr = buildFrame cmd rc (addr &&& 0x00FFFFFF)

/-! ## Obfuscator -/

/-- R144 with the chain of R140: each byte is XOR-ed with the already obfuscated byte before it. -/
def Obligations.ObfuscateChainsTheUpdatedBytes : Prop :=
  decodeWord 0x00000002#32 = .ok .obfuscate ∧
  ∀ s : State, ∃ f : Frame,
    exec .obfuscate s = .next { s with frame := f, err := 0, pending := none }
      ∧ f.byte 0 = s.frame.byte 0
      ∧ ∀ i : Fin 6, f.byte i.succ = s.frame.byte i.succ ^^^ f.byte i.castSucc

/-- R145 with R141: each byte is XOR-ed with the ORIGINAL byte before it. -/
def Obligations.DeobfuscateReadsTheOriginalBytes : Prop :=
  decodeWord 0x00000003#32 = .ok .deobfuscate ∧
  ∀ s : State, ∃ f : Frame,
    exec .deobfuscate s = .next { s with frame := f, err := 0, pending := none }
      ∧ f.byte 0 = s.frame.byte 0
      ∧ ∀ i : Fin 6, f.byte i.succ = s.frame.byte i.succ ^^^ s.frame.byte i.castSucc

/-- The two transforms undo each other, obfuscation alone does not undo itself, and applying it twice has the closed form
the spec infers. -/
def Obligations.ObfuscationLaws : Prop :=
  (∀ f : Frame, deobfuscate (obfuscate f) = f ∧ obfuscate (deobfuscate f) = f
      ∧ (∀ i : Fin 7, (obfuscate f).byte i
          = ((List.finRange 7).filter fun k => k ≤ i).foldl (fun x k => x ^^^ f.byte k) 0)
      ∧ (∀ i : Fin 7, (obfuscate (obfuscate f)).byte i
          = ((List.finRange 7).filter fun k => k ≤ i ∧ (i.val - k.val) % 2 = 0).foldl (fun x k => x ^^^ f.byte k) 0))
    ∧ (∃ f, obfuscate (obfuscate f) ≠ f)
    ∧ ∀ (cmd : Nibble) (rc : BitVec 16) (addr : Word),
        (obfuscate (buildFrame cmd rc addr)).b0 = 0xA0
          ∧ (payloadBits (obfuscate (buildFrame cmd rc addr))).head? = some true

/-! ## Timing encoder -/

/-- R162 with R161: bit `m` of the payload, byte 0 and bit 7 first, is the pulses `2m` and `2m + 1`, each half a symbol
long, and the level after the change in the middle of the bit is the bit. -/
def Obligations.ManchesterEncodesMsbFirst : Prop :=
  ∀ o : Frame, (manchester o).length = 112 ∧
    ∀ (i : Fin 7) (k : Fin 8),
      (manchester o)[2 * (8 * i.val + k.val)]? = some { level := !(o.byte i).getLsbD (7 - k.val), dur := 604 }
        ∧ (manchester o)[2 * (8 * i.val + k.val) + 1]? = some { level := (o.byte i).getLsbD (7 - k.val), dur := 604 }

/-- R164 with the pieces of R163 and the constants of R160, the payload left to `ManchesterEncodesMsbFirst`. -/
def Obligations.RepeatIsFramedAsTheSpecSays : Prop :=
  ∀ (o : Frame) (first last : Bool),
    let wakeup := [Pulse.mk true 9415, Pulse.mk false 89565]
    let pair := [Pulse.mk true 2416, Pulse.mk false 2416]
    let ssync := [Pulse.mk true 4550, Pulse.mk false 604]
    encodeRepeat o first last
      = (if first then wakeup ++ (pair ++ pair) else pair ++ pair ++ pair ++ pair ++ pair ++ pair ++ pair)
        ++ ssync ++ manchester o ++ (if last then [] else [Pulse.mk false 30415])

/-- The length and the total duration of one repeat, whatever the frame (the spec's own inference, its two tables). -/
def Obligations.RepeatLengthAndDuration : Prop :=
  ∀ o : Frame,
    ((encodeRepeat o true true).length = 120 ∧ totalDur (encodeRepeat o true true) = 181446)
      ∧ ((encodeRepeat o true false).length = 121 ∧ totalDur (encodeRepeat o true false) = 211861)
      ∧ ((encodeRepeat o false true).length = 128 ∧ totalDur (encodeRepeat o false true) = 106626)
      ∧ ((encodeRepeat o false false).length = 129 ∧ totalDur (encodeRepeat o false false) = 137041)

/-- Where adjacent pulses of one repeat have equal levels (items 1 to 3 of the spec's own inference about raw sequences):
the software-sync low before a payload that starts with 1, two payload halves around a change of bit, and a final low half
before the gap. -/
def Obligations.EqualNeighboursInARepeat : Prop :=
  ∀ (o : Frame) (first last : Bool) (j : Nat) (p q : Pulse),
    let pre := if first then 8 else 16
    (encodeRepeat o first last)[j]? = some p → (encodeRepeat o first last)[j + 1]? = some q →
      (p.level = q.level ↔
        (j + 1 = pre ∧ (payloadBits o)[0]? = some true)
          ∨ (∃ m a b, j = pre + 2 * m + 1 ∧ (payloadBits o)[m]? = some a ∧ (payloadBits o)[m + 1]? = some b ∧ a ≠ b)
          ∨ (last = false ∧ j + 1 = pre + 112 ∧ (payloadBits o)[55]? = some false))

/-- R171: RAW_COUNT <- 0, the entries are not erased, and every RAW entry reads as an unspecified value after it. -/
def Obligations.ClearRawEmptiesTheRawBuffer : Prop :=
  decodeWord 0x00000004#32 = .ok .clearRaw ∧
  ∀ s : State, ∃ t, exec .clearRaw s = .next t
    ∧ t = { s with rawCount := 0, err := 0, pending := none }
    ∧ ∀ j, readValue (.raw j) t = none

/-- R172: the repeat is appended at RAW_COUNT, or CapacityExceeded is reported and nothing is written. -/
def Obligations.EncodeRepeatAppendsOrReports : Prop :=
  (∀ first last : Bool, decodeWord (0x00000005#32 ||| ((BitVec.ofBool first).zeroExtend 32 <<< 8)
      ||| ((BitVec.ofBool last).zeroExtend 32 <<< 9)) = .ok (.encodeRepeat first last)) ∧
  ∀ (s : State) (first last : Bool), s.rawCount.toNat ≤ s.raw.length →
    let p := encodeRepeat s.frame first last
    let n0 := s.rawCount.toNat
    (n0 + p.length ≤ s.capacity.toNat →
      ∃ t, exec (.encodeRepeat first last) s = .next t
        ∧ t = { s with raw := t.raw, rawCount := t.rawCount, err := 0, pending := none }
        ∧ t.rawCount.toNat = n0 + p.length
        ∧ (∀ (j : Nat) (x : Pulse), p[j]? = some x → t.raw[n0 + j]? = some (entry x))
        ∧ ∀ j : Nat, j < n0 ∨ n0 + p.length ≤ j → t.raw[j]? = s.raw[j]?)
    ∧ (s.capacity.toNat < n0 + p.length →
      exec (.encodeRepeat first last) s = .next { s with err := 2, pending := none })

/-! ## Consolidator -/

/-- The laws of `consolidate`, for every list (the spec's own inference from the forward pass). -/
def Obligations.ConsolidateLaws : Prop :=
  (∀ raw : List Pulse,
    Alternates (consolidate raw)
      ∧ totalDur (consolidate raw) = totalDur raw
      ∧ (consolidate raw).length ≤ raw.length
      ∧ (consolidate raw = [] ↔ raw = [])
      ∧ (consolidate raw).head?.map Pulse.level = raw.head?.map Pulse.level
      ∧ (consolidate raw).getLast?.map Pulse.level = raw.getLast?.map Pulse.level
      ∧ consolidate (consolidate raw) = consolidate raw
      ∧ (Alternates raw → consolidate raw = raw)
      ∧ (consolidate raw).length + equalNeighbours raw = raw.length)
    ∧ ∀ (a b xs ys : List Pulse) (p q : Pulse), consolidate a = xs ++ [p] → consolidate b = q :: ys →
        consolidate (a ++ b)
          = if p.level = q.level then xs ++ { level := p.level, dur := p.dur + q.dur } :: ys
            else consolidate a ++ consolidate b

/-- R195: the consolidation of RAWLIST is handed off, or OutputLocked is reported and nothing is written. The premises are
invariants of the model (`StepKeepsCountsInRange`, `StepKeepsWholeRepeats`). -/
def Obligations.ConsolidateHandsOffOrReports : Prop :=
  decodeWord 0x00000006#32 = .ok .consolidate ∧
  ∀ s : State, CountsInRange s → WholeRepeats s →
    (s.handed = false →
      ∃ t, exec .consolidate s = .next t
        ∧ t = { s with out := t.out, outCount := t.outCount, handed := true, err := 0, pending := none }
        ∧ t.outCount.toNat = (consolidate (rawList s)).length
        ∧ (∀ (j : Nat) (x : Pulse), (consolidate (rawList s))[j]? = some x → t.out[j]? = some (entry x))
        ∧ outList t = consolidate (rawList t)
        ∧ ∀ j : Nat, (consolidate (rawList s)).length ≤ j → t.out[j]? = s.out[j]?)
    ∧ (s.handed = true → exec .consolidate s = .next { s with err := 5, pending := none })

/-! ## Orchestrator -/

/-- `tx_raw_len` and `max_repeats` (the spec's own inferences): the raw length of a transmission, and the largest repeat
count that fits. -/
def Obligations.RawLengthAndMaxRepeats : Prop :=
  (∀ (o : Frame) (n : Nat), 1 ≤ n → (repeatsOf o n).length = txRawLen n ∧ txRawLen n = 120 + 129 * (n - 1))
    ∧ (∀ cap n : Nat, 1 ≤ n → (txRawLen n ≤ cap ↔ n ≤ maxRepeats cap))
    ∧ maxRepeats 600 = 4

/-- R214 with R212 and R213: the four errors in their priority, each with no other effect, and the whole transmission. -/
def Obligations.BuildTransmissionBuildsOrReports : Prop :=
  decodeWord 0x00000007#32 = .ok .buildTransmission ∧
  ∀ s : State,
    let n := s.repeats.toNat
    let valid := s.cmd = 0x1 ∨ s.cmd = 0x2 ∨ s.cmd = 0x4 ∨ s.cmd = 0x8
    let o := obfuscate (buildFrame s.cmd s.rc s.addr)
    let raw := (List.range n).flatMap fun i => encodeRepeat o (decide (i = 0)) (decide (i = n - 1))
    (s.handed = true → exec .buildTransmission s = .next { s with err := 5, pending := none })
    ∧ (s.handed = false → ¬ valid → exec .buildTransmission s = .next { s with err := 3, pending := none })
    ∧ (s.handed = false → valid → n = 0 → exec .buildTransmission s = .next { s with err := 1, pending := none })
    ∧ (s.handed = false → valid → n ≠ 0 → s.capacity.toNat < raw.length →
        exec .buildTransmission s = .next { s with err := 2, pending := none })
    ∧ (s.handed = false → valid → n ≠ 0 → raw.length ≤ s.capacity.toNat →
        ∃ t, exec .buildTransmission s = .next t
          ∧ t = { s with
              frame := o, raw := t.raw, rawCount := t.rawCount, out := t.out, outCount := t.outCount
              handed := true, err := 0, pending := none }
          ∧ t.rawCount.toNat = raw.length
          ∧ (∀ (j : Nat) (x : Pulse), raw[j]? = some x → t.raw[j]? = some (entry x))
          ∧ (∀ j : Nat, raw.length ≤ j → t.raw[j]? = s.raw[j]?)
          ∧ t.outCount.toNat = (consolidate raw).length
          ∧ (∀ (j : Nat) (x : Pulse), (consolidate raw)[j]? = some x → t.out[j]? = some (entry x))
          ∧ (∀ j : Nat, (consolidate raw).length ≤ j → t.out[j]? = s.out[j]?))

/-- The laws of a successful BUILD_TRANSMISSION (the spec's own inference from the source's testable properties): first and
last pulse, the number of gaps, the total duration and the equality of OUTLIST with the consolidated RAWLIST. -/
def Obligations.TransmissionLaws : Prop :=
  ∀ s t : State, exec .buildTransmission s = .next t → t.err = 0 →
    let n := s.repeats.toNat
    1 ≤ n ∧ 0 < t.outCount.toNat
      ∧ (outList t)[0]? = some { level := true, dur := 9415 }
      ∧ ((outList t).getLast? = some { level := true, dur := 604 }
          ∨ (outList t).getLast? = some { level := false, dur := 604 })
      ∧ occurrences { level := false, dur := if t.frame.b6.getLsbD 0 then 30415 else 31019 } (outList t) = n - 1
      ∧ outList t = consolidate (rawList t)
      ∧ Alternates (outList t)
      ∧ totalDur (rawList t) = 181446 + 137041 * (n - 1)
      ∧ totalDur (outList t) = 181446 + 137041 * (n - 1)
      ∧ t.frame = obfuscate (buildFrame s.cmd s.rc s.addr)
      ∧ (t.frame.b1 ^^^ t.frame.b0) >>> 4 = s.cmd.zeroExtend 8

/-- The output length of a successful BUILD_TRANSMISSION (the spec's own inference: `tx_raw_len(n) - n(1 + T(o)) -
(n-1) z(o)`). -/
def Obligations.TransmissionOutputLength : Prop :=
  ∀ s t : State, exec .buildTransmission s = .next t → t.err = 0 →
    let n := s.repeats.toNat
    t.outCount.toNat + n * (1 + changes (payloadBits t.frame)) + (n - 1) * (if t.frame.b6.getLsbD 0 then 0 else 1)
      = t.rawCount.toNat
    ∧ t.rawCount.toNat = 120 + 129 * (n - 1)

/-- The decomposed path gives the same state as BUILD_TRANSMISSION (the spec's own inference: "leaves the same FRAME, RAW,
RAW_COUNT, OUT, OUT_COUNT, HANDED and ERR as the decomposed sequence"). -/
def Obligations.DecomposedPathAgreesWithBuildTransmission : Prop :=
  ∀ s : State, s.handed = false → validCmd s.cmd = true → 1 ≤ s.repeats.toNat →
    s.repeats.toNat ≤ maxRepeats s.capacity.toNat →
    ∃ t, exec .buildTransmission s = .next t ∧ t.err = 0 ∧ execAll (decomposed s.repeats.toNat) s = .next t

/-- R225: HANDED <- 0, and OUT and OUT_COUNT keep their values. -/
def Obligations.ReleaseEndsTheHandoff : Prop :=
  decodeWord 0x00000008#32 = .ok .release ∧
  ∀ s : State, exec .release s = .next { s with handed := false, err := 0, pending := none }

/-- R220: the successor of a rolling code, which never is 0. -/
def Obligations.NextRollingCodeSkipsZero : Prop :=
  nextRc 0xFFFF = 0x0001 ∧ ∀ rc : BitVec 16, nextRc rc ≠ 0 ∧ (rc ≠ 0xFFFF → (nextRc rc).toNat = rc.toNat + 1)

/-! ## Errors, for all operations -/

/-- R243, for every OPREQ word: a completion that reports an error changes nothing but STATUS.ERR and `pending`. -/
def Obligations.ErrorChangesOnlyErr : Prop :=
  ∀ (w : Word) (s t : State), Machine.complete (capture w) s = .next t → t.err ≠ 0 →
    t = { s with err := t.err, pending := none }

/-- R245, for every OPREQ word: which code a completion reports, the first condition that holds winning. The premise is an
invariant of the model (`StepKeepsCountsInRange`). -/
def Obligations.ErrorPriorityOrder : Prop :=
  ∀ (w : Word) (s : State), CountsInRange s →
    let op := w.extractLsb' 0 4
    ∃ t, Machine.complete (capture w) s = .next t ∧ t.pending = none
      ∧ t.err =
        if op = 0x0 ∨ 0x9 ≤ op ∨ w.extractLsb' 4 4 ≠ 0 ∨ w.extractLsb' 10 22 ≠ 0
            ∨ ((w.getLsbD 8 = true ∨ w.getLsbD 9 = true) ∧ op ≠ 0x5) then 4
        else if (op = 0x6 ∨ op = 0x7) ∧ s.handed = true then 5
        else if (op = 0x1 ∨ op = 0x7) ∧ ¬ (s.cmd = 0x1 ∨ s.cmd = 0x2 ∨ s.cmd = 0x4 ∨ s.cmd = 0x8) then 3
        else if op = 0x7 ∧ s.repeats = 0 then 1
        else if op = 0x7 ∧ s.capacity.toNat < txRawLen s.repeats.toNat then 2
        else if op = 0x5 ∧ s.capacity.toNat < s.rawCount.toNat + rawLen (w.getLsbD 8) (w.getLsbD 9) then 2
        else 0

/-- The writes column of the operand table: what each operation may write. No operation writes a parameter register, CAPACITY or a field of the outside. -/
def Obligations.OperationsWriteOnlyTheirRegisters : Prop :=
  ∀ (i : Instr) (s : State), ∃ t, exec i s = .next t
    ∧ t = { s with
        frame := t.frame, raw := t.raw, rawCount := t.rawCount, out := t.out, outCount := t.outCount
        handed := t.handed, err := t.err, pending := none }
    ∧ (t.frame = s.frame ∨ i = .buildFrame ∨ i = .obfuscate ∨ i = .deobfuscate ∨ i = .buildTransmission)
    ∧ (t.raw = s.raw ∨ (∃ f l, i = .encodeRepeat f l) ∨ i = .buildTransmission)
    ∧ (t.rawCount = s.rawCount ∨ i = .clearRaw ∨ (∃ f l, i = .encodeRepeat f l) ∨ i = .buildTransmission)
    ∧ ((t.out = s.out ∧ t.outCount = s.outCount) ∨ i = .consolidate ∨ i = .buildTransmission)
    ∧ (t.handed = s.handed ∨ i = .consolidate ∨ i = .buildTransmission ∨ i = .release)

/-! ## The register window -/

/-- The register map, in every legal build: a register stands at its own offset, and every other offset is unmapped. -/
def Obligations.RegisterMapIsTheTable : Prop :=
  ∀ cap offset : Nat, cap ≤ 1024 →
    (∀ r, regAt cap offset = some r ↔
      (r.offset = offset ∧ (∀ j, r = .raw j → j < cap) ∧ (∀ j, r = .out j → j < cap)))
    ∧ (regAt cap offset = none ↔
      offset % 4 ≠ 0 ∨ (0x02C ≤ offset ∧ offset < 0x1000) ∨ (0x1000 + 4 * cap ≤ offset ∧ offset < 0x2000)
        ∨ 0x2000 + 4 * cap ≤ offset)

/-- The accesses that are bus errors, by width, offset and direction, in every legal build; each leaves the block's state
as it is and returns no data. The five cases are R63's; that they are bus errors while BUSY = 1 too is the model's
reading (log 7), and that the machine goes on is its choice (log 6). -/
def Obligations.BusErrorsAreExactly : Prop :=
  ∀ (a : Access) (s : State), s.capacity.toNat ≤ 1024 → a.offset < 0x3000 →
    ((∃ c, busTarget a s = .error c) ↔
      a.width ≠ .w32 ∨ a.offset % 4 ≠ 0
        ∨ (0x02C ≤ a.offset ∧ a.offset < 0x1000)
        ∨ (0x1000 + 4 * s.capacity.toNat ≤ a.offset ∧ a.offset < 0x2000)
        ∨ 0x2000 + 4 * s.capacity.toNat ≤ a.offset
        ∨ (a.op = .read ∧ a.offset = 0x000)
        ∨ ((∃ v, a.op = .write v) ∧ (a.offset = 0x004 ∨ a.offset = 0x018 ∨ a.offset = 0x01C ∨ 0x028 ≤ a.offset)))
    ∧ ((∃ c, busTarget a s = .error c) →
      ∃ t, busAccess a s = .next t ∧ blockOf t = blockOf s
        ∧ t.host.reads = s.host.reads ∧ t.driver.reads = s.driver.reads)

/-- A bus error changes no state of the block, busy or idle; the agent enters a fault state that no later bus access
clears (the record of it is the model's, log 6 and log 7). -/
def Obligations.BusErrorOnlyFaultsTheAgent : Prop :=
  (∀ (a : Access) (s : State) (c : BusError), a.offset < 0x3000 → busTarget a s = .error c →
    ∃ t, busAccess a s = .next t ∧ blockOf t = blockOf s ∧ t = { s with host := t.host, driver := t.driver }
      ∧ (match a.agent with
          | .host => t.host.fault ≠ none ∧ t.host.reads = s.host.reads ∧ t.driver = s.driver
          | .driver => t.driver.fault ≠ none ∧ t.driver.reads = s.driver.reads ∧ t.host = s.host))
  ∧ ∀ s t : State, step s = .next t →
      (s.host.fault ≠ none → t.host.fault = s.host.fault) ∧ (s.driver.fault ≠ none → t.driver.fault = s.driver.fault)

/-- A write that R63 allows is refused while BUSY = 1, whichever agent makes it (that a forbidden write is a bus error even
then is the model's reading, log 7; the refusal is log 8). -/
def Obligations.WriteWhileBusyIsRefused : Prop :=
  ∀ (a : Access) (s : State) (r : Reg) (v : Word), s.pending ≠ none → a.offset < 0x3000 → a.op = .write v →
    busTarget a s = .ok r → busAccess a s = .refused (.writeWhileBusy a.agent a.offset)

/-- The fields of R27 to R30 and R33, every lane of the two FRAME registers: a register write while idle changes that
register alone, and a read after it returns the bits the register has, the reserved bits 0. R21 speaks of host writes; that a
write by the driver does the same is the model's reading of R76 and R253 (log 13). -/
def Obligations.RegisterWriteThenRead : Prop :=
  ∀ (agent : Agent) (s : State) (v : Word), s.pending = none →
    let wr := fun off => busAccess { agent := agent, width := .w32, offset := off, op := .write v } s
    (∃ t, wr 0x008 = .next t ∧ t = { s with cmd := v.extractLsb' 0 4 }
      ∧ readValue .cmd t = some (v &&& 0x0000000F))
    ∧ (∃ t, wr 0x00C = .next t ∧ t = { s with repeats := v.extractLsb' 0 8 }
      ∧ readValue .repeats t = some (v &&& 0x000000FF))
    ∧ (∃ t, wr 0x010 = .next t ∧ t = { s with rc := v.extractLsb' 0 16 }
      ∧ readValue .rc t = some (v &&& 0x0000FFFF))
    ∧ (∃ t, wr 0x014 = .next t ∧ t = { s with addr := v } ∧ readValue .addr t = some v)
    ∧ (∃ t, wr 0x020 = .next t
      ∧ t = { s with frame := { s.frame with
          b0 := v.extractLsb' 0 8, b1 := v.extractLsb' 8 8, b2 := v.extractLsb' 16 8, b3 := v.extractLsb' 24 8 } }
      ∧ readValue .frame0 t = some v ∧ readValue .frame1 t = readValue .frame1 s)
    ∧ (∃ t, wr 0x024 = .next t
      ∧ t = { s with frame := { s.frame with
          b4 := v.extractLsb' 0 8, b5 := v.extractLsb' 8 8, b6 := v.extractLsb' 16 8 } }
      ∧ readValue .frame1 t = some (v &&& 0x00FFFFFF) ∧ readValue .frame0 t = readValue .frame0 s)

/-- No read has a side effect. A read that R63 allows, busy or idle, returns the register's value, or a free draw where
the spec leaves it unspecified (the draw and the record of the data are the model's, log 4 and log 17). -/
def Obligations.ReadReturnsItsValueAndChangesNothing : Prop :=
  ∀ (a : Access) (s : State) (r : Reg), a.offset < 0x3000 → a.op = .read → busTarget a s = .ok r →
    ∃ t v, busAccess a s = .next t ∧ blockOf t = blockOf s ∧ t.wait = s.wait ∧ t.inputs = s.inputs
      ∧ (∀ x, readValue r s = some x → v = x ∧ t.draws = s.draws)
      ∧ (readValue r s = none → v = Config.freeWord s.draws ∧ t.draws = s.draws + 1)
      ∧ (match a.agent with
          | .host => t.host = { s.host with reads := (a.offset, v) :: s.host.reads } ∧ t.driver = s.driver
          | .driver => t.driver = { s.driver with reads := (a.offset, v) :: s.driver.reads } ∧ t.host = s.host)

/-- The STATUS register, bit by bit, idle or busy. -/
def Obligations.StatusRegisterLayout : Prop :=
  ∀ s : State, readValue .status s = some (statusWord s)
    ∧ (statusWord s).getLsbD 0 = s.pending.isSome
    ∧ (statusWord s).getLsbD 1 = s.handed
    ∧ (statusWord s).extractLsb' 4 4 = s.err
    ∧ (statusWord s).extractLsb' 2 2 = 0 ∧ (statusWord s).extractLsb' 8 24 = 0

/-- The reads R68 defines and those it, or R43 at or above OUT_COUNT, leaves unspecified: what a read returns while BUSY = 1;
`none` is a free draw. -/
def Obligations.ReadsWhileBusy : Prop :=
  ∀ s : State, s.pending ≠ none →
    readValue .status s = some (statusWord s)
    ∧ readValue .capacity s = some (s.capacity.zeroExtend 32)
    ∧ readValue .cmd s = some (s.cmd.zeroExtend 32)
    ∧ readValue .repeats s = some (s.repeats.zeroExtend 32)
    ∧ readValue .rc s = some (s.rc.zeroExtend 32)
    ∧ readValue .addr s = some s.addr
    ∧ (s.handed = true → readValue .outCount s = some (s.outCount.zeroExtend 32)
        ∧ ∀ j, j < s.outCount.toNat → readValue (.out j) s = s.out[j]?)
    ∧ (∀ j, s.outCount.toNat ≤ j → readValue (.out j) s = none)
    ∧ readValue .frame0 s = none ∧ readValue .frame1 s = none ∧ readValue .rawCount s = none
    ∧ (∀ j, readValue (.raw j) s = none)
    ∧ (s.handed = false → readValue .outCount s = none ∧ ∀ j, readValue (.out j) s = none)

/-- The buffer windows: an entry below its count reads as the stored word while idle; one at or above it is unspecified,
idle or busy (R43). -/
def Obligations.EntriesAboveTheCountAreUnspecified : Prop :=
  ∀ (s : State) (j : Nat),
    (CountsInRange s → s.pending = none →
      (j < s.rawCount.toNat → ∃ w, s.raw[j]? = some w ∧ readValue (.raw j) s = some w)
      ∧ (j < s.outCount.toNat → ∃ w, s.out[j]? = some w ∧ readValue (.out j) s = some w))
    ∧ (s.rawCount.toNat ≤ j → readValue (.raw j) s = none)
    ∧ (s.outCount.toNat ≤ j → readValue (.out j) s = none)

/-- What a read of each register returns while idle, bit by bit (R25 to R34; OPREQ is not readable): the field in its low
bits and 0 above it; each frame byte in its own lane (R33, R64). -/
def Obligations.ReadsWhileIdle : Prop :=
  ∀ s : State, s.pending = none →
    readValue .status s = some (statusWord s)
    ∧ readValue .cmd s = some (s.cmd.zeroExtend 32)
    ∧ readValue .repeats s = some (s.repeats.zeroExtend 32)
    ∧ readValue .rc s = some (s.rc.zeroExtend 32)
    ∧ readValue .addr s = some s.addr
    ∧ readValue .rawCount s = some (s.rawCount.zeroExtend 32)
    ∧ readValue .outCount s = some (s.outCount.zeroExtend 32)
    ∧ readValue .capacity s = some (s.capacity.zeroExtend 32)
    ∧ (∃ w, readValue .frame0 s = some w
        ∧ w.extractLsb' 0 8 = s.frame.b0 ∧ w.extractLsb' 8 8 = s.frame.b1
        ∧ w.extractLsb' 16 8 = s.frame.b2 ∧ w.extractLsb' 24 8 = s.frame.b3)
    ∧ (∃ w, readValue .frame1 s = some w
        ∧ w.extractLsb' 0 8 = s.frame.b4 ∧ w.extractLsb' 8 8 = s.frame.b5
        ∧ w.extractLsb' 16 8 = s.frame.b6 ∧ w.extractLsb' 24 8 = 0)

/-! ## Reset -/

/-- R270: the state after reset, and what its registers read. The model's own fields are set aside. -/
def Obligations.ResetValues : Prop :=
  (∀ r, r = .status ∨ r = .cmd ∨ r = .repeats ∨ r = .rc ∨ r = .addr ∨ r = .rawCount ∨ r = .outCount
      ∨ r = .frame0 ∨ r = .frame1 → readValue r State.reset = some 0#32)
    ∧ readValue .capacity State.reset = some 600#32
    ∧ State.reset.pending = none
    ∧ ∀ j, readValue (.raw j) State.reset = none ∧ readValue (.out j) State.reset = none

/-- A reset, busy or not and handed off or not, leaves the reset state (CAP is the build's; which fields are
not the block's is the model's choice, log 5 and log 9). -/
def Obligations.ResetInputResetsTheBlock : Prop :=
  ∀ s : State, s.inputs.head? = some .reset → (s.pending = none ∨ s.wait ≠ 0) →
    ∃ t, step s = .next t ∧ blockOf t = { blockOf State.reset with capacity := s.capacity }
      ∧ t.host = s.host ∧ t.driver = s.driver

/-! ## Invariants -/

/-- The reset state meets every invariant stated here. -/
def Obligations.ResetMeetsTheInvariants : Prop :=
  LegalBuild State.reset ∧ CountsInRange State.reset ∧ WholeRepeats State.reset ∧ OutAlternates State.reset
    ∧ OutDurationsBounded State.reset ∧ ErrInRange State.reset ∧ WaitForPendingOnly State.reset

/-- Every step keeps the counts within CAP and within what has been written, and keeps CAP. -/
def Obligations.StepKeepsCountsInRange : Prop :=
  ∀ s t : State, step s = .next t → LegalBuild s → CountsInRange s →
    LegalBuild t ∧ CountsInRange t ∧ t.capacity = s.capacity

/-- Every step keeps RAWLIST a sequence of whole repeats: no repeat is ever cut short. -/
def Obligations.StepKeepsWholeRepeats : Prop :=
  ∀ s t : State, step s = .next t → WholeRepeats s → WholeRepeats t

/-- Every step keeps OUTLIST alternating in level. -/
def Obligations.StepKeepsOutAlternating : Prop :=
  ∀ s t : State, step s = .next t → OutAlternates s → OutAlternates t

/-- Every step keeps each duration of OUTLIST between 604 and 89565, so none is truncated in its entry word. -/
def Obligations.StepKeepsOutDurationsBounded : Prop :=
  ∀ s t : State, step s = .next t → WholeRepeats s → OutDurationsBounded s → OutDurationsBounded t

/-- Every step keeps STATUS.ERR one of the six codes. -/
def Obligations.StepKeepsErrInRange : Prop :=
  ∀ s t : State, step s = .next t → ErrInRange s → ErrInRange t

/-- Every step keeps that LATENCY is counted only while an operation is in flight (the model's own field, log 3). -/
def Obligations.StepKeepsWaitForPendingOnly : Prop :=
  ∀ s t : State, step s = .next t → WaitForPendingOnly s → WaitForPendingOnly t

/-- OUT and OUT_COUNT do not change while HANDED = 1 (the spec's own inference from its rules for the bit), over every step
of the machine; and a step that ends the handoff is a reset, or a RELEASE that leaves them too. -/
def Obligations.HandedOffOutputIsImmutable : Prop :=
  ∀ s t : State, step s = .next t → s.handed = true →
    (t.handed = true → t.out = s.out ∧ t.outCount = s.outCount)
    ∧ (t.handed = false →
        (s.inputs.head? = some .reset ∧ (s.pending = none ∨ s.wait ≠ 0))
        ∨ (∃ r, s.pending = some r ∧ s.wait = 0 ∧ decode r = .ok .release
            ∧ t.out = s.out ∧ t.outCount = s.outCount))

/-- R26: a successful CONSOLIDATE or BUILD_TRANSMISSION sets HANDED, a RELEASE clears it, nothing else but a reset changes
it, and while it is 1 the two operations that write OUT fail and write nothing. -/
def Obligations.HandedChangesOnlyByItsRules : Prop :=
  (∀ s t : State, (exec .consolidate s = .next t ∨ exec .buildTransmission s = .next t) → t.err = 0 → t.handed = true)
    ∧ (∀ s : State, ∃ t, exec .release s = .next t ∧ t.handed = false)
    ∧ (∀ s t : State, step s = .next t → t.handed ≠ s.handed →
        (s.inputs.head? = some .reset ∧ (s.pending = none ∨ s.wait ≠ 0) ∧ t.handed = false)
        ∨ (∃ r, s.pending = some r ∧ s.wait = 0 ∧ t.err = 0
            ∧ ((t.handed = true ∧ (decode r = .ok .consolidate ∨ decode r = .ok .buildTransmission))
              ∨ (t.handed = false ∧ decode r = .ok .release))))
    ∧ ∀ s : State, s.handed = true →
        exec .consolidate s = .next { s with err := 5, pending := none }
          ∧ exec .buildTransmission s = .next { s with err := 5, pending := none }

/-- The parameter registers change only by a bus write while idle or by the reset input, and CAPACITY by nothing; no
completion step changes one. R21 says "written only by the host"; that a write by the driver is taken too is the model's
reading of R76 and R253 (log 13). Which inputs stand before the machine is the model's field (log 2). -/
def Obligations.ParameterRegistersChangeOnlyByWrites : Prop :=
  ∀ s t : State, step s = .next t →
    t.capacity = s.capacity
    ∧ ((∃ a v, s.inputs.head? = some (.access a) ∧ a.op = .write v ∧ s.pending = none)
        ∨ (s.inputs.head? = some .reset ∧ (s.pending = none ∨ s.wait ≠ 0))
        ∨ (t.cmd = s.cmd ∧ t.repeats = s.repeats ∧ t.rc = s.rc ∧ t.addr = s.addr))

/-- A driver read of OUT[j] below the count while HANDED = 1 returns the handed-off word, whether or not an operation is
in flight (the record of it is the model's, log 17). -/
def Obligations.DriverReadsTheHandedOffSequence : Prop :=
  ∀ (s : State) (j : Nat), LegalBuild s → CountsInRange s → s.handed = true → j < s.outCount.toNat →
    ∃ t w, busAccess { agent := .driver, width := .w32, offset := 0x2000 + 4 * j, op := .read } s = .next t
      ∧ s.out[j]? = some w ∧ blockOf t = blockOf s ∧ t.host = s.host
      ∧ t.driver = { s.driver with reads := (0x2000 + 4 * j, w) :: s.driver.reads }

/-- BASE is a multiple of 0x4000, and an offset of the window is found again from its bus address. -/
def Obligations.WindowIsFoundFromTheBusAddress : Prop :=
  Config.base % 0x4000 = 0
    ∧ (∀ off, off < 0x3000 → windowOffset (busAddress off) = some off)
    ∧ ∀ address off, windowOffset address = some off → off < 0x3000 ∧ off = address % 0x4000
end

