-- ==== Sys2Proof/Laws/State.lean ====
section
/-! SUPPORT. One lemma per field per update: what each named update of State leaves in each field. -/

namespace Sys2Proof.Machine

@[simp] theorem setErr_cmd (e : ErrCode) (s : State) : (setErr e s).cmd = s.cmd := rfl
@[simp] theorem setErr_repeats (e : ErrCode) (s : State) : (setErr e s).repeats = s.repeats := rfl
@[simp] theorem setErr_rc (e : ErrCode) (s : State) : (setErr e s).rc = s.rc := rfl
@[simp] theorem setErr_addr (e : ErrCode) (s : State) : (setErr e s).addr = s.addr := rfl
@[simp] theorem setErr_frame (e : ErrCode) (s : State) : (setErr e s).frame = s.frame := rfl
@[simp] theorem setErr_raw (e : ErrCode) (s : State) : (setErr e s).raw = s.raw := rfl
@[simp] theorem setErr_rawCount (e : ErrCode) (s : State) : (setErr e s).rawCount = s.rawCount := rfl
@[simp] theorem setErr_out (e : ErrCode) (s : State) : (setErr e s).out = s.out := rfl
@[simp] theorem setErr_outCount (e : ErrCode) (s : State) : (setErr e s).outCount = s.outCount := rfl
@[simp] theorem setErr_handed (e : ErrCode) (s : State) : (setErr e s).handed = s.handed := rfl
@[simp] theorem setErr_err (e : ErrCode) (s : State) : (setErr e s).err = e.code := rfl
@[simp] theorem setErr_pending (e : ErrCode) (s : State) : (setErr e s).pending = s.pending := rfl
@[simp] theorem setErr_capacity (e : ErrCode) (s : State) : (setErr e s).capacity = s.capacity := rfl
@[simp] theorem setErr_wait (e : ErrCode) (s : State) : (setErr e s).wait = s.wait := rfl
@[simp] theorem setErr_draws (e : ErrCode) (s : State) : (setErr e s).draws = s.draws := rfl
@[simp] theorem setErr_inputs (e : ErrCode) (s : State) : (setErr e s).inputs = s.inputs := rfl
@[simp] theorem setErr_host (e : ErrCode) (s : State) : (setErr e s).host = s.host := rfl
@[simp] theorem setErr_driver (e : ErrCode) (s : State) : (setErr e s).driver = s.driver := rfl

@[simp] theorem setHanded_cmd (b : Bool) (s : State) : (setHanded b s).cmd = s.cmd := rfl
@[simp] theorem setHanded_repeats (b : Bool) (s : State) : (setHanded b s).repeats = s.repeats := rfl
@[simp] theorem setHanded_rc (b : Bool) (s : State) : (setHanded b s).rc = s.rc := rfl
@[simp] theorem setHanded_addr (b : Bool) (s : State) : (setHanded b s).addr = s.addr := rfl
@[simp] theorem setHanded_frame (b : Bool) (s : State) : (setHanded b s).frame = s.frame := rfl
@[simp] theorem setHanded_raw (b : Bool) (s : State) : (setHanded b s).raw = s.raw := rfl
@[simp] theorem setHanded_rawCount (b : Bool) (s : State) : (setHanded b s).rawCount = s.rawCount := rfl
@[simp] theorem setHanded_out (b : Bool) (s : State) : (setHanded b s).out = s.out := rfl
@[simp] theorem setHanded_outCount (b : Bool) (s : State) : (setHanded b s).outCount = s.outCount := rfl
@[simp] theorem setHanded_handed (b : Bool) (s : State) : (setHanded b s).handed = b := rfl
@[simp] theorem setHanded_err (b : Bool) (s : State) : (setHanded b s).err = s.err := rfl
@[simp] theorem setHanded_pending (b : Bool) (s : State) : (setHanded b s).pending = s.pending := rfl
@[simp] theorem setHanded_capacity (b : Bool) (s : State) : (setHanded b s).capacity = s.capacity := rfl
@[simp] theorem setHanded_wait (b : Bool) (s : State) : (setHanded b s).wait = s.wait := rfl
@[simp] theorem setHanded_draws (b : Bool) (s : State) : (setHanded b s).draws = s.draws := rfl
@[simp] theorem setHanded_inputs (b : Bool) (s : State) : (setHanded b s).inputs = s.inputs := rfl
@[simp] theorem setHanded_host (b : Bool) (s : State) : (setHanded b s).host = s.host := rfl
@[simp] theorem setHanded_driver (b : Bool) (s : State) : (setHanded b s).driver = s.driver := rfl

@[simp] theorem putFrame_cmd (f : Frame) (s : State) : (putFrame f s).cmd = s.cmd := rfl
@[simp] theorem putFrame_repeats (f : Frame) (s : State) : (putFrame f s).repeats = s.repeats := rfl
@[simp] theorem putFrame_rc (f : Frame) (s : State) : (putFrame f s).rc = s.rc := rfl
@[simp] theorem putFrame_addr (f : Frame) (s : State) : (putFrame f s).addr = s.addr := rfl
@[simp] theorem putFrame_frame (f : Frame) (s : State) : (putFrame f s).frame = f := rfl
@[simp] theorem putFrame_raw (f : Frame) (s : State) : (putFrame f s).raw = s.raw := rfl
@[simp] theorem putFrame_rawCount (f : Frame) (s : State) : (putFrame f s).rawCount = s.rawCount := rfl
@[simp] theorem putFrame_out (f : Frame) (s : State) : (putFrame f s).out = s.out := rfl
@[simp] theorem putFrame_outCount (f : Frame) (s : State) : (putFrame f s).outCount = s.outCount := rfl
@[simp] theorem putFrame_handed (f : Frame) (s : State) : (putFrame f s).handed = s.handed := rfl
@[simp] theorem putFrame_err (f : Frame) (s : State) : (putFrame f s).err = s.err := rfl
@[simp] theorem putFrame_pending (f : Frame) (s : State) : (putFrame f s).pending = s.pending := rfl
@[simp] theorem putFrame_capacity (f : Frame) (s : State) : (putFrame f s).capacity = s.capacity := rfl
@[simp] theorem putFrame_wait (f : Frame) (s : State) : (putFrame f s).wait = s.wait := rfl
@[simp] theorem putFrame_draws (f : Frame) (s : State) : (putFrame f s).draws = s.draws := rfl
@[simp] theorem putFrame_inputs (f : Frame) (s : State) : (putFrame f s).inputs = s.inputs := rfl
@[simp] theorem putFrame_host (f : Frame) (s : State) : (putFrame f s).host = s.host := rfl
@[simp] theorem putFrame_driver (f : Frame) (s : State) : (putFrame f s).driver = s.driver := rfl

@[simp] theorem emptyRaw_cmd (s : State) : (emptyRaw s).cmd = s.cmd := rfl
@[simp] theorem emptyRaw_repeats (s : State) : (emptyRaw s).repeats = s.repeats := rfl
@[simp] theorem emptyRaw_rc (s : State) : (emptyRaw s).rc = s.rc := rfl
@[simp] theorem emptyRaw_addr (s : State) : (emptyRaw s).addr = s.addr := rfl
@[simp] theorem emptyRaw_frame (s : State) : (emptyRaw s).frame = s.frame := rfl
@[simp] theorem emptyRaw_raw (s : State) : (emptyRaw s).raw = s.raw := rfl
@[simp] theorem emptyRaw_rawCount (s : State) : (emptyRaw s).rawCount = 0 := rfl
@[simp] theorem emptyRaw_out (s : State) : (emptyRaw s).out = s.out := rfl
@[simp] theorem emptyRaw_outCount (s : State) : (emptyRaw s).outCount = s.outCount := rfl
@[simp] theorem emptyRaw_handed (s : State) : (emptyRaw s).handed = s.handed := rfl
@[simp] theorem emptyRaw_err (s : State) : (emptyRaw s).err = s.err := rfl
@[simp] theorem emptyRaw_pending (s : State) : (emptyRaw s).pending = s.pending := rfl
@[simp] theorem emptyRaw_capacity (s : State) : (emptyRaw s).capacity = s.capacity := rfl
@[simp] theorem emptyRaw_wait (s : State) : (emptyRaw s).wait = s.wait := rfl
@[simp] theorem emptyRaw_draws (s : State) : (emptyRaw s).draws = s.draws := rfl
@[simp] theorem emptyRaw_inputs (s : State) : (emptyRaw s).inputs = s.inputs := rfl
@[simp] theorem emptyRaw_host (s : State) : (emptyRaw s).host = s.host := rfl
@[simp] theorem emptyRaw_driver (s : State) : (emptyRaw s).driver = s.driver := rfl

@[simp] theorem storeRaw_cmd (n : Nat) (ps : List Pulse) (s : State) : (storeRaw n ps s).cmd = s.cmd := rfl
@[simp] theorem storeRaw_repeats (n : Nat) (ps : List Pulse) (s : State) : (storeRaw n ps s).repeats = s.repeats := rfl
@[simp] theorem storeRaw_rc (n : Nat) (ps : List Pulse) (s : State) : (storeRaw n ps s).rc = s.rc := rfl
@[simp] theorem storeRaw_addr (n : Nat) (ps : List Pulse) (s : State) : (storeRaw n ps s).addr = s.addr := rfl
@[simp] theorem storeRaw_frame (n : Nat) (ps : List Pulse) (s : State) : (storeRaw n ps s).frame = s.frame := rfl
@[simp] theorem storeRaw_raw (n : Nat) (ps : List Pulse) (s : State) : (storeRaw n ps s).raw = storeAt s.raw n (ps.map entry) := rfl
@[simp] theorem storeRaw_rawCount (n : Nat) (ps : List Pulse) (s : State) : (storeRaw n ps s).rawCount = BitVec.ofNat 16 (n + ps.length) := rfl
@[simp] theorem storeRaw_out (n : Nat) (ps : List Pulse) (s : State) : (storeRaw n ps s).out = s.out := rfl
@[simp] theorem storeRaw_outCount (n : Nat) (ps : List Pulse) (s : State) : (storeRaw n ps s).outCount = s.outCount := rfl
@[simp] theorem storeRaw_handed (n : Nat) (ps : List Pulse) (s : State) : (storeRaw n ps s).handed = s.handed := rfl
@[simp] theorem storeRaw_err (n : Nat) (ps : List Pulse) (s : State) : (storeRaw n ps s).err = s.err := rfl
@[simp] theorem storeRaw_pending (n : Nat) (ps : List Pulse) (s : State) : (storeRaw n ps s).pending = s.pending := rfl
@[simp] theorem storeRaw_capacity (n : Nat) (ps : List Pulse) (s : State) : (storeRaw n ps s).capacity = s.capacity := rfl
@[simp] theorem storeRaw_wait (n : Nat) (ps : List Pulse) (s : State) : (storeRaw n ps s).wait = s.wait := rfl
@[simp] theorem storeRaw_draws (n : Nat) (ps : List Pulse) (s : State) : (storeRaw n ps s).draws = s.draws := rfl
@[simp] theorem storeRaw_inputs (n : Nat) (ps : List Pulse) (s : State) : (storeRaw n ps s).inputs = s.inputs := rfl
@[simp] theorem storeRaw_host (n : Nat) (ps : List Pulse) (s : State) : (storeRaw n ps s).host = s.host := rfl
@[simp] theorem storeRaw_driver (n : Nat) (ps : List Pulse) (s : State) : (storeRaw n ps s).driver = s.driver := rfl

@[simp] theorem storeOut_cmd (ps : List Pulse) (s : State) : (storeOut ps s).cmd = s.cmd := rfl
@[simp] theorem storeOut_repeats (ps : List Pulse) (s : State) : (storeOut ps s).repeats = s.repeats := rfl
@[simp] theorem storeOut_rc (ps : List Pulse) (s : State) : (storeOut ps s).rc = s.rc := rfl
@[simp] theorem storeOut_addr (ps : List Pulse) (s : State) : (storeOut ps s).addr = s.addr := rfl
@[simp] theorem storeOut_frame (ps : List Pulse) (s : State) : (storeOut ps s).frame = s.frame := rfl
@[simp] theorem storeOut_raw (ps : List Pulse) (s : State) : (storeOut ps s).raw = s.raw := rfl
@[simp] theorem storeOut_rawCount (ps : List Pulse) (s : State) : (storeOut ps s).rawCount = s.rawCount := rfl
@[simp] theorem storeOut_out (ps : List Pulse) (s : State) : (storeOut ps s).out = storeAt s.out 0 (ps.map entry) := rfl
@[simp] theorem storeOut_outCount (ps : List Pulse) (s : State) : (storeOut ps s).outCount = BitVec.ofNat 16 ps.length := rfl
@[simp] theorem storeOut_handed (ps : List Pulse) (s : State) : (storeOut ps s).handed = s.handed := rfl
@[simp] theorem storeOut_err (ps : List Pulse) (s : State) : (storeOut ps s).err = s.err := rfl
@[simp] theorem storeOut_pending (ps : List Pulse) (s : State) : (storeOut ps s).pending = s.pending := rfl
@[simp] theorem storeOut_capacity (ps : List Pulse) (s : State) : (storeOut ps s).capacity = s.capacity := rfl
@[simp] theorem storeOut_wait (ps : List Pulse) (s : State) : (storeOut ps s).wait = s.wait := rfl
@[simp] theorem storeOut_draws (ps : List Pulse) (s : State) : (storeOut ps s).draws = s.draws := rfl
@[simp] theorem storeOut_inputs (ps : List Pulse) (s : State) : (storeOut ps s).inputs = s.inputs := rfl
@[simp] theorem storeOut_host (ps : List Pulse) (s : State) : (storeOut ps s).host = s.host := rfl
@[simp] theorem storeOut_driver (ps : List Pulse) (s : State) : (storeOut ps s).driver = s.driver := rfl

@[simp] theorem raiseError_cmd (e : ErrCode) (s : State) : (raiseError e s).cmd = s.cmd := rfl
@[simp] theorem raiseError_repeats (e : ErrCode) (s : State) : (raiseError e s).repeats = s.repeats := rfl
@[simp] theorem raiseError_rc (e : ErrCode) (s : State) : (raiseError e s).rc = s.rc := rfl
@[simp] theorem raiseError_addr (e : ErrCode) (s : State) : (raiseError e s).addr = s.addr := rfl
@[simp] theorem raiseError_frame (e : ErrCode) (s : State) : (raiseError e s).frame = s.frame := rfl
@[simp] theorem raiseError_raw (e : ErrCode) (s : State) : (raiseError e s).raw = s.raw := rfl
@[simp] theorem raiseError_rawCount (e : ErrCode) (s : State) : (raiseError e s).rawCount = s.rawCount := rfl
@[simp] theorem raiseError_out (e : ErrCode) (s : State) : (raiseError e s).out = s.out := rfl
@[simp] theorem raiseError_outCount (e : ErrCode) (s : State) : (raiseError e s).outCount = s.outCount := rfl
@[simp] theorem raiseError_handed (e : ErrCode) (s : State) : (raiseError e s).handed = s.handed := rfl
@[simp] theorem raiseError_err (e : ErrCode) (s : State) : (raiseError e s).err = e.code := rfl
@[simp] theorem raiseError_pending (e : ErrCode) (s : State) : (raiseError e s).pending = none := rfl
@[simp] theorem raiseError_capacity (e : ErrCode) (s : State) : (raiseError e s).capacity = s.capacity := rfl
@[simp] theorem raiseError_wait (e : ErrCode) (s : State) : (raiseError e s).wait = s.wait := rfl
@[simp] theorem raiseError_draws (e : ErrCode) (s : State) : (raiseError e s).draws = s.draws := rfl
@[simp] theorem raiseError_inputs (e : ErrCode) (s : State) : (raiseError e s).inputs = s.inputs := rfl
@[simp] theorem raiseError_host (e : ErrCode) (s : State) : (raiseError e s).host = s.host := rfl
@[simp] theorem raiseError_driver (e : ErrCode) (s : State) : (raiseError e s).driver = s.driver := rfl

@[simp] theorem succeed_cmd (s : State) : (succeed s).cmd = s.cmd := rfl
@[simp] theorem succeed_repeats (s : State) : (succeed s).repeats = s.repeats := rfl
@[simp] theorem succeed_rc (s : State) : (succeed s).rc = s.rc := rfl
@[simp] theorem succeed_addr (s : State) : (succeed s).addr = s.addr := rfl
@[simp] theorem succeed_frame (s : State) : (succeed s).frame = s.frame := rfl
@[simp] theorem succeed_raw (s : State) : (succeed s).raw = s.raw := rfl
@[simp] theorem succeed_rawCount (s : State) : (succeed s).rawCount = s.rawCount := rfl
@[simp] theorem succeed_out (s : State) : (succeed s).out = s.out := rfl
@[simp] theorem succeed_outCount (s : State) : (succeed s).outCount = s.outCount := rfl
@[simp] theorem succeed_handed (s : State) : (succeed s).handed = s.handed := rfl
@[simp] theorem succeed_err (s : State) : (succeed s).err = 0 := rfl
@[simp] theorem succeed_pending (s : State) : (succeed s).pending = none := rfl
@[simp] theorem succeed_capacity (s : State) : (succeed s).capacity = s.capacity := rfl
@[simp] theorem succeed_wait (s : State) : (succeed s).wait = s.wait := rfl
@[simp] theorem succeed_draws (s : State) : (succeed s).draws = s.draws := rfl
@[simp] theorem succeed_inputs (s : State) : (succeed s).inputs = s.inputs := rfl
@[simp] theorem succeed_host (s : State) : (succeed s).host = s.host := rfl
@[simp] theorem succeed_driver (s : State) : (succeed s).driver = s.driver := rfl

@[simp] theorem nextDraw_cmd (s : State) : (nextDraw s).cmd = s.cmd := rfl
@[simp] theorem nextDraw_repeats (s : State) : (nextDraw s).repeats = s.repeats := rfl
@[simp] theorem nextDraw_rc (s : State) : (nextDraw s).rc = s.rc := rfl
@[simp] theorem nextDraw_addr (s : State) : (nextDraw s).addr = s.addr := rfl
@[simp] theorem nextDraw_frame (s : State) : (nextDraw s).frame = s.frame := rfl
@[simp] theorem nextDraw_raw (s : State) : (nextDraw s).raw = s.raw := rfl
@[simp] theorem nextDraw_rawCount (s : State) : (nextDraw s).rawCount = s.rawCount := rfl
@[simp] theorem nextDraw_out (s : State) : (nextDraw s).out = s.out := rfl
@[simp] theorem nextDraw_outCount (s : State) : (nextDraw s).outCount = s.outCount := rfl
@[simp] theorem nextDraw_handed (s : State) : (nextDraw s).handed = s.handed := rfl
@[simp] theorem nextDraw_err (s : State) : (nextDraw s).err = s.err := rfl
@[simp] theorem nextDraw_pending (s : State) : (nextDraw s).pending = s.pending := rfl
@[simp] theorem nextDraw_capacity (s : State) : (nextDraw s).capacity = s.capacity := rfl
@[simp] theorem nextDraw_wait (s : State) : (nextDraw s).wait = s.wait := rfl
@[simp] theorem nextDraw_draws (s : State) : (nextDraw s).draws = s.draws + 1 := rfl
@[simp] theorem nextDraw_inputs (s : State) : (nextDraw s).inputs = s.inputs := rfl
@[simp] theorem nextDraw_host (s : State) : (nextDraw s).host = s.host := rfl
@[simp] theorem nextDraw_driver (s : State) : (nextDraw s).driver = s.driver := rfl

@[simp] theorem tick_cmd (s : State) : (tick s).cmd = s.cmd := rfl
@[simp] theorem tick_repeats (s : State) : (tick s).repeats = s.repeats := rfl
@[simp] theorem tick_rc (s : State) : (tick s).rc = s.rc := rfl
@[simp] theorem tick_addr (s : State) : (tick s).addr = s.addr := rfl
@[simp] theorem tick_frame (s : State) : (tick s).frame = s.frame := rfl
@[simp] theorem tick_raw (s : State) : (tick s).raw = s.raw := rfl
@[simp] theorem tick_rawCount (s : State) : (tick s).rawCount = s.rawCount := rfl
@[simp] theorem tick_out (s : State) : (tick s).out = s.out := rfl
@[simp] theorem tick_outCount (s : State) : (tick s).outCount = s.outCount := rfl
@[simp] theorem tick_handed (s : State) : (tick s).handed = s.handed := rfl
@[simp] theorem tick_err (s : State) : (tick s).err = s.err := rfl
@[simp] theorem tick_pending (s : State) : (tick s).pending = s.pending := rfl
@[simp] theorem tick_capacity (s : State) : (tick s).capacity = s.capacity := rfl
@[simp] theorem tick_wait (s : State) : (tick s).wait = s.wait - 1 := rfl
@[simp] theorem tick_draws (s : State) : (tick s).draws = s.draws := rfl
@[simp] theorem tick_inputs (s : State) : (tick s).inputs = s.inputs := rfl
@[simp] theorem tick_host (s : State) : (tick s).host = s.host := rfl
@[simp] theorem tick_driver (s : State) : (tick s).driver = s.driver := rfl

@[simp] theorem dropInput_cmd (s : State) : (dropInput s).cmd = s.cmd := rfl
@[simp] theorem dropInput_repeats (s : State) : (dropInput s).repeats = s.repeats := rfl
@[simp] theorem dropInput_rc (s : State) : (dropInput s).rc = s.rc := rfl
@[simp] theorem dropInput_addr (s : State) : (dropInput s).addr = s.addr := rfl
@[simp] theorem dropInput_frame (s : State) : (dropInput s).frame = s.frame := rfl
@[simp] theorem dropInput_raw (s : State) : (dropInput s).raw = s.raw := rfl
@[simp] theorem dropInput_rawCount (s : State) : (dropInput s).rawCount = s.rawCount := rfl
@[simp] theorem dropInput_out (s : State) : (dropInput s).out = s.out := rfl
@[simp] theorem dropInput_outCount (s : State) : (dropInput s).outCount = s.outCount := rfl
@[simp] theorem dropInput_handed (s : State) : (dropInput s).handed = s.handed := rfl
@[simp] theorem dropInput_err (s : State) : (dropInput s).err = s.err := rfl
@[simp] theorem dropInput_pending (s : State) : (dropInput s).pending = s.pending := rfl
@[simp] theorem dropInput_capacity (s : State) : (dropInput s).capacity = s.capacity := rfl
@[simp] theorem dropInput_wait (s : State) : (dropInput s).wait = s.wait := rfl
@[simp] theorem dropInput_draws (s : State) : (dropInput s).draws = s.draws := rfl
@[simp] theorem dropInput_inputs (s : State) : (dropInput s).inputs = s.inputs.tail := rfl
@[simp] theorem dropInput_host (s : State) : (dropInput s).host = s.host := rfl
@[simp] theorem dropInput_driver (s : State) : (dropInput s).driver = s.driver := rfl

@[simp] theorem readyRequest_cmd (r : Request) (s : State) : (readyRequest r s).cmd = s.cmd := rfl
@[simp] theorem readyRequest_repeats (r : Request) (s : State) : (readyRequest r s).repeats = s.repeats := rfl
@[simp] theorem readyRequest_rc (r : Request) (s : State) : (readyRequest r s).rc = s.rc := rfl
@[simp] theorem readyRequest_addr (r : Request) (s : State) : (readyRequest r s).addr = s.addr := rfl
@[simp] theorem readyRequest_frame (r : Request) (s : State) : (readyRequest r s).frame = s.frame := rfl
@[simp] theorem readyRequest_raw (r : Request) (s : State) : (readyRequest r s).raw = s.raw := rfl
@[simp] theorem readyRequest_rawCount (r : Request) (s : State) : (readyRequest r s).rawCount = s.rawCount := rfl
@[simp] theorem readyRequest_out (r : Request) (s : State) : (readyRequest r s).out = s.out := rfl
@[simp] theorem readyRequest_outCount (r : Request) (s : State) : (readyRequest r s).outCount = s.outCount := rfl
@[simp] theorem readyRequest_handed (r : Request) (s : State) : (readyRequest r s).handed = s.handed := rfl
@[simp] theorem readyRequest_err (r : Request) (s : State) : (readyRequest r s).err = s.err := rfl
@[simp] theorem readyRequest_pending (r : Request) (s : State) : (readyRequest r s).pending = some r := rfl
@[simp] theorem readyRequest_capacity (r : Request) (s : State) : (readyRequest r s).capacity = s.capacity := rfl
@[simp] theorem readyRequest_wait (r : Request) (s : State) : (readyRequest r s).wait = 0 := rfl
@[simp] theorem readyRequest_draws (r : Request) (s : State) : (readyRequest r s).draws = s.draws := rfl
@[simp] theorem readyRequest_inputs (r : Request) (s : State) : (readyRequest r s).inputs = s.inputs := rfl
@[simp] theorem readyRequest_host (r : Request) (s : State) : (readyRequest r s).host = s.host := rfl
@[simp] theorem readyRequest_driver (r : Request) (s : State) : (readyRequest r s).driver = s.driver := rfl

@[simp] theorem issue_cmd (w : Word) (s : State) : (issue w s).cmd = s.cmd := rfl
@[simp] theorem issue_repeats (w : Word) (s : State) : (issue w s).repeats = s.repeats := rfl
@[simp] theorem issue_rc (w : Word) (s : State) : (issue w s).rc = s.rc := rfl
@[simp] theorem issue_addr (w : Word) (s : State) : (issue w s).addr = s.addr := rfl
@[simp] theorem issue_frame (w : Word) (s : State) : (issue w s).frame = s.frame := rfl
@[simp] theorem issue_raw (w : Word) (s : State) : (issue w s).raw = s.raw := rfl
@[simp] theorem issue_rawCount (w : Word) (s : State) : (issue w s).rawCount = s.rawCount := rfl
@[simp] theorem issue_out (w : Word) (s : State) : (issue w s).out = s.out := rfl
@[simp] theorem issue_outCount (w : Word) (s : State) : (issue w s).outCount = s.outCount := rfl
@[simp] theorem issue_handed (w : Word) (s : State) : (issue w s).handed = s.handed := rfl
@[simp] theorem issue_err (w : Word) (s : State) : (issue w s).err = s.err := rfl
@[simp] theorem issue_pending (w : Word) (s : State) : (issue w s).pending = some (capture w) := rfl
@[simp] theorem issue_capacity (w : Word) (s : State) : (issue w s).capacity = s.capacity := rfl
@[simp] theorem issue_wait (w : Word) (s : State) : (issue w s).wait = Config.latencyDraw s.draws + 1 := rfl
@[simp] theorem issue_draws (w : Word) (s : State) : (issue w s).draws = s.draws + 1 := rfl
@[simp] theorem issue_inputs (w : Word) (s : State) : (issue w s).inputs = s.inputs := rfl
@[simp] theorem issue_host (w : Word) (s : State) : (issue w s).host = s.host := rfl
@[simp] theorem issue_driver (w : Word) (s : State) : (issue w s).driver = s.driver := rfl

@[simp] theorem resetBlock_cmd (s : State) : (resetBlock s).cmd = 0 := rfl
@[simp] theorem resetBlock_repeats (s : State) : (resetBlock s).repeats = 0 := rfl
@[simp] theorem resetBlock_rc (s : State) : (resetBlock s).rc = 0 := rfl
@[simp] theorem resetBlock_addr (s : State) : (resetBlock s).addr = 0 := rfl
@[simp] theorem resetBlock_frame (s : State) : (resetBlock s).frame = Frame.zero := rfl
@[simp] theorem resetBlock_raw (s : State) : (resetBlock s).raw = [] := rfl
@[simp] theorem resetBlock_rawCount (s : State) : (resetBlock s).rawCount = 0 := rfl
@[simp] theorem resetBlock_out (s : State) : (resetBlock s).out = [] := rfl
@[simp] theorem resetBlock_outCount (s : State) : (resetBlock s).outCount = 0 := rfl
@[simp] theorem resetBlock_handed (s : State) : (resetBlock s).handed = false := rfl
@[simp] theorem resetBlock_err (s : State) : (resetBlock s).err = 0 := rfl
@[simp] theorem resetBlock_pending (s : State) : (resetBlock s).pending = none := rfl
@[simp] theorem resetBlock_capacity (s : State) : (resetBlock s).capacity = s.capacity := rfl
@[simp] theorem resetBlock_wait (s : State) : (resetBlock s).wait = 0 := rfl
@[simp] theorem resetBlock_draws (s : State) : (resetBlock s).draws = s.draws := rfl
@[simp] theorem resetBlock_inputs (s : State) : (resetBlock s).inputs = s.inputs := rfl
@[simp] theorem resetBlock_host (s : State) : (resetBlock s).host = s.host := rfl
@[simp] theorem resetBlock_driver (s : State) : (resetBlock s).driver = s.driver := rfl

@[simp] theorem recordRead_cmd (a : Agent) (o : Nat) (v : Word) (s : State) : (recordRead a o v s).cmd = s.cmd := by cases a <;> rfl
@[simp] theorem recordRead_repeats (a : Agent) (o : Nat) (v : Word) (s : State) : (recordRead a o v s).repeats = s.repeats := by cases a <;> rfl
@[simp] theorem recordRead_rc (a : Agent) (o : Nat) (v : Word) (s : State) : (recordRead a o v s).rc = s.rc := by cases a <;> rfl
@[simp] theorem recordRead_addr (a : Agent) (o : Nat) (v : Word) (s : State) : (recordRead a o v s).addr = s.addr := by cases a <;> rfl
@[simp] theorem recordRead_frame (a : Agent) (o : Nat) (v : Word) (s : State) : (recordRead a o v s).frame = s.frame := by cases a <;> rfl
@[simp] theorem recordRead_raw (a : Agent) (o : Nat) (v : Word) (s : State) : (recordRead a o v s).raw = s.raw := by cases a <;> rfl
@[simp] theorem recordRead_rawCount (a : Agent) (o : Nat) (v : Word) (s : State) : (recordRead a o v s).rawCount = s.rawCount := by cases a <;> rfl
@[simp] theorem recordRead_out (a : Agent) (o : Nat) (v : Word) (s : State) : (recordRead a o v s).out = s.out := by cases a <;> rfl
@[simp] theorem recordRead_outCount (a : Agent) (o : Nat) (v : Word) (s : State) : (recordRead a o v s).outCount = s.outCount := by cases a <;> rfl
@[simp] theorem recordRead_handed (a : Agent) (o : Nat) (v : Word) (s : State) : (recordRead a o v s).handed = s.handed := by cases a <;> rfl
@[simp] theorem recordRead_err (a : Agent) (o : Nat) (v : Word) (s : State) : (recordRead a o v s).err = s.err := by cases a <;> rfl
@[simp] theorem recordRead_pending (a : Agent) (o : Nat) (v : Word) (s : State) : (recordRead a o v s).pending = s.pending := by cases a <;> rfl
@[simp] theorem recordRead_capacity (a : Agent) (o : Nat) (v : Word) (s : State) : (recordRead a o v s).capacity = s.capacity := by cases a <;> rfl
@[simp] theorem recordRead_wait (a : Agent) (o : Nat) (v : Word) (s : State) : (recordRead a o v s).wait = s.wait := by cases a <;> rfl
@[simp] theorem recordRead_draws (a : Agent) (o : Nat) (v : Word) (s : State) : (recordRead a o v s).draws = s.draws := by cases a <;> rfl
@[simp] theorem recordRead_inputs (a : Agent) (o : Nat) (v : Word) (s : State) : (recordRead a o v s).inputs = s.inputs := by cases a <;> rfl

@[simp] theorem busError_cmd (a : Agent) (c : BusError) (s : State) : (busError a c s).cmd = s.cmd := by cases a <;> rfl
@[simp] theorem busError_repeats (a : Agent) (c : BusError) (s : State) : (busError a c s).repeats = s.repeats := by cases a <;> rfl
@[simp] theorem busError_rc (a : Agent) (c : BusError) (s : State) : (busError a c s).rc = s.rc := by cases a <;> rfl
@[simp] theorem busError_addr (a : Agent) (c : BusError) (s : State) : (busError a c s).addr = s.addr := by cases a <;> rfl
@[simp] theorem busError_frame (a : Agent) (c : BusError) (s : State) : (busError a c s).frame = s.frame := by cases a <;> rfl
@[simp] theorem busError_raw (a : Agent) (c : BusError) (s : State) : (busError a c s).raw = s.raw := by cases a <;> rfl
@[simp] theorem busError_rawCount (a : Agent) (c : BusError) (s : State) : (busError a c s).rawCount = s.rawCount := by cases a <;> rfl
@[simp] theorem busError_out (a : Agent) (c : BusError) (s : State) : (busError a c s).out = s.out := by cases a <;> rfl
@[simp] theorem busError_outCount (a : Agent) (c : BusError) (s : State) : (busError a c s).outCount = s.outCount := by cases a <;> rfl
@[simp] theorem busError_handed (a : Agent) (c : BusError) (s : State) : (busError a c s).handed = s.handed := by cases a <;> rfl
@[simp] theorem busError_err (a : Agent) (c : BusError) (s : State) : (busError a c s).err = s.err := by cases a <;> rfl
@[simp] theorem busError_pending (a : Agent) (c : BusError) (s : State) : (busError a c s).pending = s.pending := by cases a <;> rfl
@[simp] theorem busError_capacity (a : Agent) (c : BusError) (s : State) : (busError a c s).capacity = s.capacity := by cases a <;> rfl
@[simp] theorem busError_wait (a : Agent) (c : BusError) (s : State) : (busError a c s).wait = s.wait := by cases a <;> rfl
@[simp] theorem busError_draws (a : Agent) (c : BusError) (s : State) : (busError a c s).draws = s.draws := by cases a <;> rfl
@[simp] theorem busError_inputs (a : Agent) (c : BusError) (s : State) : (busError a c s).inputs = s.inputs := by cases a <;> rfl

@[simp] theorem recordRead_host_host (o : Nat) (v : Word) (s : State) :
    (recordRead .host o v s).host = { s.host with reads := (o, v) :: s.host.reads } := rfl
@[simp] theorem recordRead_host_driver (o : Nat) (v : Word) (s : State) : (recordRead .host o v s).driver = s.driver := rfl
@[simp] theorem recordRead_driver_host (o : Nat) (v : Word) (s : State) : (recordRead .driver o v s).host = s.host := rfl
@[simp] theorem recordRead_driver_driver (o : Nat) (v : Word) (s : State) :
    (recordRead .driver o v s).driver = { s.driver with reads := (o, v) :: s.driver.reads } := rfl
@[simp] theorem busError_host_host (c : BusError) (s : State) :
    (busError .host c s).host = { s.host with fault := s.host.fault <|> some c } := rfl
@[simp] theorem busError_host_driver (c : BusError) (s : State) : (busError .host c s).driver = s.driver := rfl
@[simp] theorem busError_driver_host (c : BusError) (s : State) : (busError .driver c s).host = s.host := rfl
@[simp] theorem busError_driver_driver (c : BusError) (s : State) :
    (busError .driver c s).driver = { s.driver with fault := s.driver.fault <|> some c } := rfl

@[simp] theorem capOf_eq (s : State) : capOf s = s.capacity.toNat := rfl
@[simp] theorem busy_eq (s : State) : busy s = s.pending.isSome := rfl

end Sys2Proof.Machine
end

