-- ==== Sys2Proof/Laws/Buffers.lean ====
section
/-! SUPPORT. The buffer operation `storeAt`, entry words and their pulses, and the form the buffers keep (R35 to R37). -/

namespace Sys2Proof.Machine

/-- The form of a buffer: its count covers entries that have been written, and no more than CAP are held. -/
abbrev BufferOk (cap : Nat) (count : BitVec 16) (buf : List Word) : Prop :=
  count.toNat ≤ buf.length ∧ buf.length ≤ cap

theorem storeAt_length {buf : List Word} {start : Nat} (ws : List Word) (h : start ≤ buf.length) :
    (storeAt buf start ws).length = max buf.length (start + ws.length) := by
  simp only [storeAt, List.length_append, List.length_take, List.length_drop]
  omega

theorem storeAt_take (buf : List Word) (start : Nat) (ws : List Word) :
    (storeAt buf start ws).take (start + ws.length) = buf.take start ++ ws := by
  rw [storeAt]
  rcases Nat.le_total start buf.length with h | h
  · rw [List.take_left']
    simp [Nat.min_eq_left h]
  · have hd : buf.drop (start + ws.length) = [] := List.drop_eq_nil_of_le (by omega)
    rw [hd, List.append_nil, List.take_of_length_le]
    simp

theorem storeAt_get_stored {buf : List Word} {start : Nat} (ws : List Word) (h : start ≤ buf.length) {j : Nat}
    (hj : j < ws.length) : (storeAt buf start ws)[start + j]? = ws[j]? := by
  rw [storeAt, List.append_assoc, List.getElem?_append_right (by simp), List.getElem?_append_left]
  · congr 1
    simp [Nat.min_eq_left h]
  · simp [Nat.min_eq_left h]
    omega

theorem storeAt_get_other {buf : List Word} {start : Nat} (ws : List Word) (h : start ≤ buf.length) {j : Nat}
    (hj : j < start ∨ start + ws.length ≤ j) : (storeAt buf start ws)[j]? = buf[j]? := by
  rw [storeAt]
  rcases hj with hj | hj
  · rw [List.append_assoc, List.getElem?_append_left (by simp; omega), List.getElem?_take_of_lt hj]
  · rw [List.getElem?_append_right (by simp; omega), List.getElem?_drop]
    congr 1
    simp
    omega

theorem storeAt_storeAt_append (buf : List Word) (ws vs : List Word) :
    storeAt (storeAt buf 0 ws) ws.length vs = storeAt buf 0 (ws ++ vs) := by
  simp [storeAt, List.drop_append]

@[simp] theorem pulseOf_entry_level (p : Pulse) : (pulseOf (entry p)).level = p.level := by
  cases h : p.level <;> simp [pulseOf, entry, h]

theorem pulseOf_entry {p : Pulse} (h : p.dur < 2 ^ 31) : pulseOf (entry p) = p := by
  have hd : (pulseOf (entry p)).dur = p.dur := by
    have hw : (entry p).extractLsb' 0 31 = BitVec.ofNat 31 p.dur := by
      ext i hi
      simp [entry, hi]
      omega
    rw [pulseOf, hw, BitVec.toNat_ofNat, Nat.mod_eq_of_lt h]
  have hl := pulseOf_entry_level p
  cases p
  cases hq : pulseOf (entry _)
  simp_all

theorem map_pulseOf_entry {ps : List Pulse} (h : ∀ p ∈ ps, p.dur < 2 ^ 31) : (ps.map entry).map pulseOf = ps := by
  rw [List.map_map]
  conv => rhs; rw [← List.map_id ps]
  exact List.map_congr_left fun p hp => pulseOf_entry (h p hp)

/-- What `storeRaw` appends to the valid entries, when it starts at the count and the new count fits in 16 bits. -/
theorem rawWords_storeRaw {s : State} {ps : List Pulse} (h : s.rawCount.toNat + ps.length < 2 ^ 16) :
    rawWords (storeRaw s.rawCount.toNat ps s) = rawWords s ++ ps.map entry := by
  rw [rawWords, storeRaw_raw, storeRaw_rawCount, BitVec.toNat_ofNat, Nat.mod_eq_of_lt h, rawWords,
    ← List.length_map (as := ps) (f := entry), storeAt_take]

/-- What `storeRaw` leaves as the valid entries, when it starts at 0. -/
theorem rawWords_storeRaw_zero {s : State} {ps : List Pulse} (h : ps.length < 2 ^ 16) :
    rawWords (storeRaw 0 ps s) = ps.map entry := by
  have := storeAt_take s.raw 0 (ps.map entry)
  rw [rawWords, storeRaw_raw, storeRaw_rawCount, Nat.zero_add, BitVec.toNat_ofNat, Nat.mod_eq_of_lt h]
  simpa using this

/-- What `storeOut` leaves as the valid entries. -/
theorem outWords_storeOut {s : State} {ps : List Pulse} (h : ps.length < 2 ^ 16) :
    outWords (storeOut ps s) = ps.map entry := by
  have := storeAt_take s.out 0 (ps.map entry)
  rw [outWords, storeOut_out, storeOut_outCount, BitVec.toNat_ofNat, Nat.mod_eq_of_lt h]
  simpa using this

/-- Storing a list that ends within CAP keeps the form of a buffer. -/
theorem storeAt_bufferOk {cap : Nat} {count : BitVec 16} {buf ws : List Word} {start : Nat} (hb : BufferOk cap count buf)
    (hs : start ≤ buf.length) (hc : start + ws.length ≤ cap) (h16 : start + ws.length < 2 ^ 16) :
    BufferOk cap (BitVec.ofNat 16 (start + ws.length)) (storeAt buf start ws) := by
  obtain ⟨-, hl⟩ := hb
  have := storeAt_length ws hs
  rw [BufferOk, BitVec.toNat_ofNat, Nat.mod_eq_of_lt h16]
  omega

/-- Writing RAW entries from within the count keeps the form of both buffers. -/
theorem storeRaw_countsInRange {s : State} {start : Nat} {ps : List Pulse} (h : CountsInRange s)
    (hs : start ≤ s.rawCount.toNat) (hc : start + ps.length ≤ capOf s) : CountsInRange (storeRaw start ps s) := by
  obtain ⟨h1, h2, h3⟩ := h
  have h16 : start + ps.length < 2 ^ 16 := Nat.lt_of_le_of_lt hc s.capacity.isLt
  have hb := storeAt_bufferOk (ws := ps.map entry) (start := start) (show BufferOk (capOf s) s.rawCount s.raw from ⟨h1, h2⟩)
    (by omega) (by rwa [List.length_map]) (by rwa [List.length_map])
  rw [List.length_map] at hb
  exact ⟨hb.1, hb.2, h3⟩

/-- Writing OUT keeps the form of both buffers. -/
theorem storeOut_countsInRange {s : State} {ps : List Pulse} (h : CountsInRange s) (hc : ps.length ≤ capOf s) :
    CountsInRange (storeOut ps s) := by
  obtain ⟨h1, h2, h3⟩ := h
  have h16 : 0 + ps.length < 2 ^ 16 := by
    rw [Nat.zero_add]
    exact Nat.lt_of_le_of_lt hc s.capacity.isLt
  have hb := storeAt_bufferOk (ws := ps.map entry) (start := 0) (show BufferOk (capOf s) s.outCount s.out from h3)
    (by omega) (by rw [List.length_map]; omega) (by rwa [List.length_map])
  rw [List.length_map, Nat.zero_add] at hb
  exact ⟨h1, h2, hb.1, hb.2⟩

/-- Emptying RAW keeps the form of both buffers (R171). -/
theorem emptyRaw_countsInRange {s : State} (h : CountsInRange s) : CountsInRange (emptyRaw s) :=
  ⟨Nat.zero_le _, h.2⟩

/-- Emptied or reset buffers have the form. -/
theorem reset_countsInRange : CountsInRange State.reset :=
  ⟨Nat.zero_le _, Nat.zero_le _, Nat.zero_le _, Nat.zero_le _⟩

end Sys2Proof.Machine
end

