-- ==== Sys2Proof/Laws/Decode.lean ====
section
/-! SUPPORT. The decoder against well-formedness, and the command codes against their enumeration. -/

namespace Sys2Proof

open Machine (Request Command)

/-- A request decodes to an operation exactly when it is legal (R93). -/
theorem decode_isOk_iff_wf (r : Request) : (∃ i, decode r = .ok i) ↔ r.wf = true := by
  have key : ∀ (op : Nibble) (first last rsvd : Bool),
      (decode ⟨op, first, last, rsvd⟩).isOk = Request.wf ⟨op, first, last, rsvd⟩ := by decide
  have hk := key r.op r.first r.last r.rsvd
  rw [← hk]
  cases h : decode r <;> simp [Except.isOk, Except.toBool]

/-- The legal codes are the codes of the four commands (R100). -/
theorem Machine.validCmd_iff_command (c : Nibble) : Machine.validCmd c = true ↔ ∃ k : Command, k.code = c := by
  constructor
  · intro h
    simp only [Machine.validCmd, Bool.or_eq_true, beq_iff_eq] at h
    rcases h with ((rfl | rfl) | rfl) | rfl
    · exact ⟨.stop, rfl⟩
    · exact ⟨.up, rfl⟩
    · exact ⟨.down, rfl⟩
    · exact ⟨.prog, rfl⟩
  · rintro ⟨k, rfl⟩
    cases k <;> rfl

end Sys2Proof
end

