-- ==== Sys2Proof/Laws/Exec.lean ====
section
/-! SUPPORT. Everything each meaning can answer, said once, and the same of a step. -/

namespace Sys2Proof.Machine

theorem execBuildFrame_cases {s t : State} (h : execBuildFrame s = .next t) :
    (validCmd s.cmd = true ∧ t = succeed (putFrame (buildFrame s.cmd s.rc s.addr) s))
      ∨ (validCmd s.cmd = false ∧ t = raiseError .invalidCommand s) := by
  simp only [execBuildFrame, cmdOperand, rcOperand, addrOperand] at h
  split at h <;> cases h <;> simp_all

theorem execEncodeRepeat_cases {first last : Bool} {s t : State} (h : execEncodeRepeat first last s = .next t) :
    (s.rawCount.toNat + (encodeRepeat s.frame first last).length ≤ capOf s
        ∧ t = succeed (storeRaw s.rawCount.toNat (encodeRepeat s.frame first last) s))
      ∨ (capOf s < s.rawCount.toNat + (encodeRepeat s.frame first last).length
        ∧ t = raiseError .capacityExceeded s) := by
  simp only [execEncodeRepeat, frameOperand, rawCountOperand] at h
  split at h <;> cases h
  · exact .inr ⟨by omega, rfl⟩
  · exact .inl ⟨by omega, rfl⟩

theorem execConsolidate_cases {s t : State} (h : execConsolidate s = .next t) :
    (s.handed = true ∧ t = raiseError .outputLocked s)
      ∨ (s.handed = false ∧ capOf s < (consolidate (rawList s)).length ∧ t = raiseError .capacityExceeded s)
      ∨ (s.handed = false ∧ (consolidate (rawList s)).length ≤ capOf s
        ∧ t = succeed (setHanded true (storeOut (consolidate (rawList s)) s))) := by
  simp only [execConsolidate] at h
  split at h
  · next hh => cases h; exact .inl ⟨hh, rfl⟩
  · next hh =>
    have hf : s.handed = false := by simpa using hh
    split at h <;> cases h
    · exact .inr (.inl ⟨hf, by omega, rfl⟩)
    · exact .inr (.inr ⟨hf, by omega, rfl⟩)

/-- What `build_transmission` returns when it returns a transmission (R212). -/
theorem buildTransmission_ok {cap : Nat} {cmd : Nibble} {rc : BitVec 16} {addr : Word} {n : BitVec 8} {o : Frame}
    {raw out : List Pulse} (h : buildTransmission cap cmd rc addr n = .ok (o, raw, out)) :
    validCmd cmd = true ∧ n ≠ 0 ∧ txRawLen n.toNat ≤ cap ∧ o = obfuscate (buildFrame cmd rc addr)
      ∧ raw = repeatsOf o n.toNat ∧ out = consolidate raw ∧ out.length ≤ cap := by
  simp only [buildTransmission] at h
  split at h
  · cases h
  · next hv =>
    split at h
    · cases h
    · next hn =>
      split at h
      · cases h
      · next hc =>
        split at h
        · cases h
        · next ho =>
          cases h
          exact ⟨by simpa using hv, hn, by omega, rfl, rfl, rfl, by omega⟩

theorem execBuildTransmission_cases {s t : State} (h : execBuildTransmission s = .next t) :
    (s.handed = true ∧ t = raiseError .outputLocked s)
      ∨ (∃ e, s.handed = false ∧ buildTransmission (capOf s) s.cmd s.rc s.addr s.repeats = .error e
        ∧ t = raiseError e s)
      ∨ (∃ o raw out, s.handed = false ∧ buildTransmission (capOf s) s.cmd s.rc s.addr s.repeats = .ok (o, raw, out)
        ∧ t = succeed (setHanded true (storeOut out (storeRaw 0 raw (putFrame o s))))) := by
  simp only [execBuildTransmission, cmdOperand, rcOperand, addrOperand, repeatsOperand] at h
  split at h
  · next hh => cases h; exact .inl ⟨hh, rfl⟩
  · next hh =>
    have hf : s.handed = false := by simpa using hh
    split at h
    · next e he => cases h; exact .inr (.inl ⟨e, hf, he, rfl⟩)
    · next o raw out ho => cases h; exact .inr (.inr ⟨o, raw, out, hf, ho, rfl⟩)

/-- Everything a completion step can do (R92): refuse the word, or perform the operation it decodes to. -/
theorem complete_cases {r : Request} {s t : State} (h : Machine.complete r s = .next t) :
    (∃ c, decode r = .error c ∧ t = raiseError .illegalOp s) ∨ (∃ i, decode r = .ok i ∧ exec i s = .next t) := by
  simp only [Machine.complete] at h
  split at h
  · next i hi => exact .inr ⟨i, hi, h⟩
  · next c hc => cases h; exact .inl ⟨c, hc, rfl⟩

/-- Everything a bus access that goes on can do (R63, R67, R248). -/
theorem busAccess_cases {a : Access} {s t : State} (h : busAccess a s = .next t) :
    (∃ c, busTarget a s = .error c ∧ t = busError a.agent c s)
      ∨ (∃ r, busTarget a s = .ok r ∧ a.op = .read ∧ t = readReg a.agent a.offset r s)
      ∨ (∃ r v, busTarget a s = .ok r ∧ a.op = .write v ∧ busy s = false ∧ t = writeReg r v s) := by
  simp only [busAccess] at h
  split at h
  · split at h
    · next c hc => cases h; exact .inl ⟨c, hc, rfl⟩
    · next r hr =>
      split at h
      · next ho => cases h; exact .inr (.inl ⟨r, hr, ho, rfl⟩)
      · next v ho =>
        split at h
        · cases h
        · next hb => cases h; exact .inr (.inr ⟨r, v, hr, ho, by simpa using hb, rfl⟩)
  · cases h

/-- Everything a step of the outside can do. -/
theorem inputStep_cases {s t : State} (h : inputStep s = .next t) :
    (s.inputs = [] ∧ t = s)
      ∨ (∃ a rest, s.inputs = .access a :: rest ∧ busAccess a (dropInput s) = .next t)
      ∨ (∃ rest, s.inputs = .poll :: rest ∧ t = pollRead (if busy s then s else dropInput s))
      ∨ (∃ rest, s.inputs = .reset :: rest ∧ t = resetBlock (dropInput s)) := by
  simp only [inputStep] at h
  split at h
  · next hi => cases h; exact .inl ⟨hi, rfl⟩
  · next a rest hi => exact .inr (.inl ⟨a, rest, hi, h⟩)
  · next rest hi => cases h; exact .inr (.inr (.inl ⟨rest, hi, rfl⟩))
  · next rest hi => cases h; exact .inr (.inr (.inr ⟨rest, hi, rfl⟩))

/-- Everything a step can do: complete the ready request, or let the outside act. -/
theorem step_cases {s t : State} (h : step s = .next t) :
    (∃ r, s.pending = some r ∧ s.wait = 0 ∧ Machine.complete r s = .next t)
      ∨ (∃ r, s.pending = some r ∧ s.wait ≠ 0 ∧ inputStep (tick s) = .next t)
      ∨ (s.pending = none ∧ inputStep s = .next t) := by
  simp only [step, machineStep] at h
  split at h
  · next hp => exact .inr (.inr ⟨hp, h⟩)
  · next r hp =>
    split at h
    · next hw => exact .inl ⟨r, hp, hw, h⟩
    · next hw => exact .inr (.inl ⟨r, hp, hw, h⟩)

end Sys2Proof.Machine
end

