-- ==== Sys2Proof/Laws/Nibbles.lean ====
section
/-! SUPPORT. Nibbles of the bytes the frame builder writes (R10, R121, R122). -/

namespace Sys2Proof.Machine

@[simp] theorem hiNibble_high_or_low (a k : Nibble) : hiNibble (a.zeroExtend 8 <<< 4 ||| k.zeroExtend 8) = a := by
  ext i hi
  have h4 : 4 + i < 8 := by omega
  simp [hiNibble, h4, BitVec.getLsbD_eq_getElem hi]

@[simp] theorem loNibble_high_or_low (a k : Nibble) : loNibble (a.zeroExtend 8 <<< 4 ||| k.zeroExtend 8) = k := by
  ext i hi
  have h8 : i < 8 := by omega
  simp [loNibble, hi, h8]

@[simp] theorem hiNibble_high (a : Nibble) : hiNibble (a.zeroExtend 8 <<< 4) = a := by
  ext i hi
  have h4 : 4 + i < 8 := by omega
  simp [hiNibble, h4, BitVec.getLsbD_eq_getElem hi]

@[simp] theorem loNibble_high (a : Nibble) : loNibble (a.zeroExtend 8 <<< 4) = 0 := by
  ext i hi
  have h8 : i < 8 := by omega
  simp [loNibble, hi, h8]

theorem hiNibble_field {n : Nat} (v : BitVec n) (j : Nat) : hiNibble (v.extractLsb' j 8) = v.extractLsb' (j + 4) 4 := by
  ext i hi
  have h4 : 4 + i < 8 := by omega
  simp [hiNibble, h4, Nat.add_assoc]

theorem loNibble_field {n : Nat} (v : BitVec n) (j : Nat) : loNibble (v.extractLsb' j 8) = v.extractLsb' j 4 := by
  ext i hi
  have h8 : i < 8 := by omega
  simp [loNibble, h8]

end Sys2Proof.Machine
end

