-- ==== Sys2Proof/Laws/PerInstr.lean ====
section
/-! SUPPORT. A statement about every instruction as syntax, one lemma per constructor: its OPREQ word is one of the eleven
legal words of R96. -/

namespace Sys2Proof.Laws.EncodesToLegalWord

/-- The word of a well-formed instruction is listed in R96. -/
def Statement (i : Instr) : Prop := i.wf = true → encode i ∈ legalWords

theorem buildFrame : Statement .buildFrame := fun _ => by decide

theorem obfuscate : Statement .obfuscate := fun _ => by decide

theorem deobfuscate : Statement .deobfuscate := fun _ => by decide

theorem clearRaw : Statement .clearRaw := fun _ => by decide

theorem encodeRepeat (first last : Bool) : Statement (.encodeRepeat first last) := fun _ => by
  cases first <;> cases last <;> decide

theorem consolidate : Statement .consolidate := fun _ => by decide

theorem buildTransmission : Statement .buildTransmission := fun _ => by decide

theorem release : Statement .release := fun _ => by decide

end Sys2Proof.Laws.EncodesToLegalWord
end

