-- ==== Sys2Proof/Laws/Step.lean ====
section
/-! SUPPORT. What a step of the outside leaves of the buffers, the counts and the flags; what a completion leaves in flight;
and the steps between issue and completion. -/

namespace Sys2Proof.Machine

/-- The fields that no bus access writes: only completions and the reset input do (R31, R32, R35, R36, R39). -/
structure SameResults (s t : State) : Prop where
  raw : t.raw = s.raw
  rawCount : t.rawCount = s.rawCount
  out : t.out = s.out
  outCount : t.outCount = s.outCount
  handed : t.handed = s.handed
  err : t.err = s.err
  capacity : t.capacity = s.capacity

theorem SameResults.rawWords {s t : State} (h : SameResults s t) : rawWords t = Machine.rawWords s := by
  simp [Machine.rawWords, h.raw, h.rawCount]

theorem SameResults.outList {s t : State} (h : SameResults s t) : outList t = Machine.outList s := by
  simp [Machine.outList, outWords, h.out, h.outCount]

theorem SameResults.refl (s : State) : SameResults s s := ⟨rfl, rfl, rfl, rfl, rfl, rfl, rfl⟩

theorem SameResults.trans {s t u : State} (h : SameResults s t) (k : SameResults t u) : SameResults s u :=
  ⟨k.raw.trans h.raw, k.rawCount.trans h.rawCount, k.out.trans h.out, k.outCount.trans h.outCount,
    k.handed.trans h.handed, k.err.trans h.err, k.capacity.trans h.capacity⟩

theorem tick_sameResults (s : State) : SameResults s (tick s) := ⟨rfl, rfl, rfl, rfl, rfl, rfl, rfl⟩

theorem dropInput_sameResults (s : State) : SameResults s (dropInput s) := ⟨rfl, rfl, rfl, rfl, rfl, rfl, rfl⟩

theorem readReg_sameResults (agent : Agent) (offset : Nat) (r : Reg) (s : State) :
    SameResults s (readReg agent offset r s) := by
  unfold readReg
  split <;> constructor <;> simp

theorem writeReg_sameResults (r : Reg) (v : Word) (s : State) : SameResults s (writeReg r v s) := by
  cases r <;> constructor <;> simp [writeReg]

theorem busAccess_sameResults {a : Access} {s t : State} (h : busAccess a s = .next t) : SameResults s t := by
  rcases busAccess_cases h with ⟨c, -, rfl⟩ | ⟨r, -, -, rfl⟩ | ⟨r, v, -, -, -, rfl⟩
  · constructor <;> simp
  · exact readReg_sameResults ..
  · exact writeReg_sameResults ..

/-- A step of the outside leaves the results alone, or it is a reset. -/
theorem inputStep_results {s t : State} (h : inputStep s = .next t) :
    SameResults s t ∨ (s.inputs.head? = some .reset ∧ t = resetBlock (dropInput s)) := by
  rcases inputStep_cases h with ⟨-, rfl⟩ | ⟨a, rest, -, h⟩ | ⟨rest, -, rfl⟩ | ⟨rest, hi, rfl⟩
  · exact .inl (.refl _)
  · exact .inl ((dropInput_sameResults s).trans (busAccess_sameResults h))
  · refine .inl ?_
    unfold pollRead
    split
    · exact readReg_sameResults ..
    · exact (dropInput_sameResults s).trans (readReg_sameResults ..)
  · exact .inr ⟨by simp [hi], rfl⟩

/-- What a step does to the results: a completion, nothing, or a reset. Every invariant of the buffers and flags follows
from its three cases. -/
theorem step_results {s t : State} (h : step s = .next t) :
    (∃ r, s.pending = some r ∧ s.wait = 0 ∧ Machine.complete r s = .next t)
      ∨ SameResults s t
      ∨ (s.inputs.head? = some .reset ∧ (s.pending = none ∨ s.wait ≠ 0) ∧ ∃ u, t = resetBlock u ∧ u.capacity = s.capacity) := by
  rcases step_cases h with h | ⟨r, hp, hw, h⟩ | ⟨hp, h⟩
  · exact .inl h
  · rcases inputStep_results h with h | ⟨hi, rfl⟩
    · exact .inr (.inl ((tick_sameResults s).trans h))
    · exact .inr (.inr ⟨hi, .inr hw, _, rfl, rfl⟩)
  · rcases inputStep_results h with h | ⟨hi, rfl⟩
    · exact .inr (.inl h)
    · exact .inr (.inr ⟨hi, .inl hp, _, rfl, rfl⟩)

/-- An operation that goes on leaves nothing in flight, and LATENCY alone. -/
theorem exec_leaves_idle {i : Instr} {s t : State} (h : exec i s = .next t) : t.pending = none ∧ t.wait = s.wait := by
  cases i
  case buildFrame => rcases execBuildFrame_cases h with ⟨-, rfl⟩ | ⟨-, rfl⟩ <;> simp
  case encodeRepeat => rcases execEncodeRepeat_cases h with ⟨-, rfl⟩ | ⟨-, rfl⟩ <;> simp
  case consolidate => rcases execConsolidate_cases h with ⟨-, rfl⟩ | ⟨-, -, rfl⟩ | ⟨-, -, rfl⟩ <;> simp
  case buildTransmission =>
    rcases execBuildTransmission_cases h with ⟨-, rfl⟩ | ⟨e, -, -, rfl⟩ | ⟨o, raw, out, -, -, rfl⟩ <;> simp
  all_goals cases h; simp

/-- A completion leaves nothing in flight, and LATENCY alone (R92). -/
theorem complete_leaves_idle {r : Request} {s t : State} (h : Machine.complete r s = .next t) :
    t.pending = none ∧ t.wait = s.wait := by
  rcases complete_cases h with ⟨c, -, rfl⟩ | ⟨i, -, h⟩
  · simp
  · exact exec_leaves_idle h

/-- A read inside the window goes on and leaves the block, LATENCY and the inputs alone (R67, R248). -/
theorem busAccess_read {a : Access} {s : State} (ho : a.offset < 0x3000) (hr : a.op = .read) :
    ∃ t, busAccess a s = .next t ∧ blockOf t = blockOf s ∧ t.wait = s.wait ∧ t.inputs = s.inputs := by
  simp only [busAccess, windowSize, ho, if_true, hr]
  split
  · refine ⟨_, rfl, ?_⟩
    cases a.agent <;> simp [busError, blockOf]
  · refine ⟨_, rfl, ?_⟩
    unfold readReg
    split <;> cases a.agent <;> simp [recordRead, blockOf]

/-- A step between issue and completion, when the next input, if any, is a poll or a read: one step of LATENCY passes, the
block stays, and at most the next input is used up (R40). -/
theorem step_before_completion {s : State} {r : Request} (hp : s.pending = some r) (hw : s.wait ≠ 0)
    (hi : ∀ i, s.inputs.head? = some i → i = .poll ∨ ∃ a, i = .access a ∧ a.offset < 0x3000 ∧ a.op = .read) :
    ∃ t, step s = .next t ∧ blockOf t = blockOf s ∧ t.wait = s.wait - 1
      ∧ (t.inputs = s.inputs.tail ∨ t.inputs = s.inputs) := by
  have hs : step s = inputStep (tick s) := by simp [step, machineStep, hp, hw]
  rw [hs]
  rcases hx : s.inputs with _ | ⟨x, rest⟩
  · exact ⟨tick s, by simp [inputStep, tick, hx], rfl, rfl, .inr hx⟩
  · rcases hi x (by simp [hx]) with rfl | ⟨a, rfl, ho, hr⟩
    · refine ⟨pollRead (tick s), by simp [inputStep, tick, hx, hp], ?_⟩
      simp [tick, pollRead, readReg, readValue, definedWhileBusy, idleValue, recordRead, hx, blockOf]
    · obtain ⟨t, ht, hb, hw', hin⟩ := busAccess_read (s := dropInput (tick s)) ho hr
      exact ⟨t, by simpa [inputStep, tick, hx] using ht, hb, hw', .inl (by simpa [dropInput, tick, hx] using hin)⟩

end Sys2Proof.Machine
end

