-- ==== Sys2Proof/Laws/Timing.lean ====
section
/-! SUPPORT. The shape of the pulse lists of the timing encoder (R161 to R165), so that no proof unfolds a whole repeat. -/

namespace Sys2Proof.Machine

@[simp] theorem payloadBits_length (o : Frame) : (payloadBits o).length = 56 := rfl

theorem flatMap_manchesterBit_length (bs : List Bool) : (bs.flatMap manchesterBit).length = 2 * bs.length := by
  induction bs with
  | nil => rfl
  | cons b bs ih =>
    rw [List.flatMap_cons, List.length_append, ih, List.length_cons]
    cases b <;> simp [manchesterBit] <;> omega

@[simp] theorem manchester_length (o : Frame) : (manchester o).length = 112 := by
  rw [manchester, flatMap_manchesterBit_length, payloadBits_length]

@[simp] theorem framing_length (first : Bool) : (framing first).length = if first then 8 else 16 := by
  cases first <;> rfl

@[simp] theorem encodeRepeat_length (o : Frame) (first last : Bool) :
    (encodeRepeat o first last).length = rawLen first last := by
  cases first <;> cases last <;> simp [encodeRepeat, rawLen, gap]

theorem rawLen_le (first last : Bool) : rawLen first last ≤ 129 := by
  cases first <;> cases last <;> decide

/-- A successful operation's pulse counts fit in the 16-bit count registers. -/
theorem lt_of_le_capOf {n : Nat} {s : State} (h : n ≤ capOf s) : n < 2 ^ 16 :=
  Nat.lt_of_le_of_lt h s.capacity.isLt

/-- The durations of R160. -/
theorem dur_mem_of_mem_encodeRepeat {o : Frame} {first last : Bool} {p : Pulse} (h : p ∈ encodeRepeat o first last) :
    p.dur ∈ [604, 2416, 4550, 9415, 30415, 89565] := by
  simp only [encodeRepeat, List.mem_append] at h
  rcases h with (h | h) | h
  · cases first <;> revert p <;> decide
  · simp only [manchester, List.mem_flatMap] at h
    obtain ⟨b, -, h⟩ := h
    cases b <;> revert p <;> decide
  · cases last
    · revert p
      decide
    · simp at h

end Sys2Proof.Machine
end

