-- ==== Sys2Proof/Tests/Slice0.lean ====
section
/-! SUPPORT. Tests of single steps against the spec's own vectors (95_test_vectors.md, named in each comment), the smoke
test of well-formedness, words written out from the encodings of R90, and one witness for the premises of each statement. -/

namespace Sys2Proof.Machine.Tests

/-- What `f` reads of the next state; `none` for a stop. -/
def nextOf {α : Type} (o : Host.Outcome State Fault Refusal) (f : State → α) : Option α :=
  match o with
  | .next t => some (f t)
  | .fault _ => none
  | .refused _ => none

/-- FRAME0, FRAME1 and STATUS, as the block shows them. -/
def frameView (s : State) : Word × Word × Word := (frame0Word s.frame, frame1Word s.frame, statusWord s)

/-- RAW_COUNT, OUT_COUNT and STATUS, as the block shows them. -/
def countView (s : State) : Nat × Nat × Word := (s.rawCount.toNat, s.outCount.toNat, statusWord s)

/-- The parameter registers set, everything else as after reset. -/
def withParams (cmd : Nibble) (rc : BitVec 16) (addr : Word) (n : BitVec 8) : State :=
  { State.reset with cmd := cmd, rc := rc, addr := addr, repeats := n }

/-- FRAME set, everything else as after reset. -/
def withFrame (f : Frame) : State := { State.reset with frame := f }

/-- Frame U (scenario 1). -/
def frameU : Frame := ⟨0xA0, 0x29, 0x00, 0x42, 0xCA, 0xFE, 0x00⟩

/-- Frame oD (scenario 4, obfuscated). -/
def frameOD : Frame := ⟨0xA0, 0xE6, 0xE6, 0xCC, 0xDD, 0xFF, 0xCC⟩

/-- `n` RAW entries that are valid. -/
def withRawCount (n : Nat) : State :=
  { State.reset with frame := frameOD, raw := List.replicate n 0x0000025C, rawCount := BitVec.ofNat 16 n }

/-- An operation in flight, its LATENCY not over. -/
def inFlight : State := { State.reset with pending := some (capture 0x007), wait := 3, cmd := 0x4 }

/-- One pulse handed off. -/
def handedOff : State := { State.reset with out := [0x800024C7], outCount := 1, handed := true }

/-- A 32-bit access of the host. -/
def hostAccess (offset : Nat) (op : BusOp) : Access := { agent := .host, width := .w32, offset := offset, op := op }

/-! ## Decoding: the bits of R90, written out -/

theorem test_decode_build_frame : decodeWord 0b00000000000000000000000000000001 = .ok .buildFrame := by decide
theorem test_decode_obfuscate : decodeWord 0b00000000000000000000000000000010 = .ok .obfuscate := by decide
theorem test_decode_deobfuscate : decodeWord 0b00000000000000000000000000000011 = .ok .deobfuscate := by decide
theorem test_decode_clear_raw : decodeWord 0b00000000000000000000000000000100 = .ok .clearRaw := by decide
theorem test_decode_encode_repeat_first : decodeWord 0b00000000000000000000000100000101 = .ok (.encodeRepeat true false) := by
  decide
theorem test_decode_encode_repeat_last : decodeWord 0b00000000000000000000001000000101 = .ok (.encodeRepeat false true) := by
  decide
theorem test_decode_consolidate : decodeWord 0b00000000000000000000000000000110 = .ok .consolidate := by decide
theorem test_decode_build_transmission : decodeWord 0b00000000000000000000000000000111 = .ok .buildTransmission := by decide
theorem test_decode_release : decodeWord 0b00000000000000000000000000001000 = .ok .release := by decide

-- V20 to V27.
theorem test_illegal_words :
    decodeWord 0x00000000 = .error .reservedOp ∧ decodeWord 0x00000009 = .error .reservedOp
      ∧ decodeWord 0x0000000F = .error .reservedOp ∧ decodeWord 0x00000011 = .error .reservedBit
      ∧ decodeWord 0x00000101 = .error .strayFlag ∧ decodeWord 0x00000207 = .error .strayFlag
      ∧ decodeWord 0x00000405 = .error .reservedBit ∧ decodeWord 0x80000008 = .error .reservedBit := by decide

theorem test_decode_table_word : decodeTableWord 32 0x305 = some (.encodeRepeat true true) ∧ decodeTableWord 32 0x9 = none := by
  decide

-- The legal words of R96 are the words of the eight instructions.
theorem test_encode_legal : encode (.encodeRepeat true true) = 0x305 ∧ encode .release = 0x008 := by decide

/-! ## Well-formedness: one ill-formed request for each check of R93 -/

theorem test_wf_refuses_reserved_bits : Request.wf ⟨0x1, false, false, true⟩ = false := by decide
theorem test_wf_refuses_op_zero : Request.wf ⟨0x0, false, false, false⟩ = false := by decide
theorem test_wf_refuses_op_nine : Request.wf ⟨0x9, false, false, false⟩ = false := by decide
theorem test_wf_refuses_stray_first : Request.wf ⟨0x1, true, false, false⟩ = false := by decide
theorem test_wf_refuses_stray_last : Request.wf ⟨0x7, false, true, false⟩ = false := by decide
theorem test_wf_accepts_encode_repeat : Request.wf ⟨0x5, true, true, false⟩ = true := by decide
theorem test_wf_instr : (Instr.encodeRepeat true true).wf = true := by decide

/-! ## Operations -/

-- E1.
theorem test_build_frame_scenario_1 :
    nextOf (exec .buildFrame (withParams 0x2 0x0042 0x00CAFE00 0)) frameView = some (0x420029A0, 0x0000FECA, 0x00) := by
  decide
-- V55.
theorem test_build_frame_invalid_command :
    nextOf (exec .buildFrame (withParams 0x3 0x0042 0x00CAFE00 0)) frameView = some (0, 0, 0x30) := by decide
-- E2.
theorem test_obfuscate_scenario_2 :
    nextOf (exec .obfuscate (withFrame frameU)) frameView = some (0xCB8989A0, 0x00FFFF01, 0x00) := by decide
-- V67.
theorem test_obfuscate_chain :
    nextOf (exec .obfuscate (withFrame ⟨0x01, 0x02, 0x04, 0x08, 0x10, 0x20, 0x40⟩)) State.frame
      = some ⟨0x01, 0x03, 0x07, 0x0F, 0x1F, 0x3F, 0x7F⟩ := by decide
theorem test_deobfuscate_chain :
    nextOf (exec .deobfuscate (withFrame ⟨0x01, 0x02, 0x04, 0x08, 0x10, 0x20, 0x40⟩)) State.frame
      = some ⟨0x01, 0x03, 0x06, 0x0C, 0x18, 0x30, 0x60⟩ := by decide
-- V90.
theorem test_clear_raw : nextOf (exec .clearRaw (withRawCount 120)) countView = some (0, 0, 0x00) := by decide
-- V80: the first and the last words appended.
theorem test_encode_repeat_first_last :
    nextOf (exec (.encodeRepeat true true) (withFrame frameOD)) (fun t => (countView t, t.raw.take 3, t.raw.drop 117))
      = some ((120, 0, 0x00), [0x800024C7, 0x00015DDD, 0x80000970], [0x0000025C, 0x8000025C, 0x0000025C]) := by
  decide +kernel
-- V89: 481 + 120 = 601 entries do not fit.
theorem test_encode_repeat_capacity :
    nextOf (exec (.encodeRepeat true true) (withRawCount 481)) countView = some (481, 0, 0x20) := by decide +kernel
-- V105.
theorem test_consolidate_merges :
    consolidate [low 604, low 604, high 604, high 604, low 604] = [low 1208, high 1208, low 604] := by decide
-- V118 and V119.
theorem test_consolidate_empty : nextOf (exec .consolidate State.reset) countView = some (0, 0, 0x02) := by decide
theorem test_consolidate_locked : nextOf (exec .consolidate handedOff) countView = some (0, 1, 0x52) := by decide
-- E4, V131.
theorem test_build_transmission_scenario_4 :
    nextOf (exec .buildTransmission (withParams 0x4 42 0x112233 1)) (fun t => (frameView t, countView t, (t.out.drop 6).take 3))
      = some ((0xCCE6E6A0, 0x00CCFFDD, 0x02), (120, 96, 0x02), [0x800011C6, 0x000004B8, 0x800004B8]) := by decide +kernel
-- V152.
theorem test_build_transmission_priority :
    nextOf (exec .buildTransmission (withParams 0x3 42 0x112233 5)) countView = some (0, 0, 0x30) := by decide
-- V30.
theorem test_release : nextOf (exec .release handedOff) countView = some (0, 1, 0x00) := by decide
-- E3 and the table of section 2.7.
theorem test_next_rc : nextRc 0xFFFF = 0x0001 ∧ nextRc 0x7FFF = 0x8000 := by decide

/-! ## The step, the bus and reset -/

-- V162 and V164, as the first instruction after reset.
theorem test_step_after_reset :
    nextOf (step (State.reset.withFetchWord 32 0x001)) statusWord = some 0x30
      ∧ nextOf (step (State.reset.withFetchWord 32 0x305)) (fun t => (t.rawCount.toNat, t.raw[8]?)) = some (120, some 0x8000025C) := by
  decide +kernel
-- V155: IllegalOp over everything.
theorem test_step_illegal : nextOf (step (handedOff.withFetchWord 32 0x107)) statusWord = some 0x42 := by decide
-- V4 and V8.
theorem test_write_cmd : nextOf (busAccess (hostAccess 0x008 (.write 0xFFFFFFF4)) State.reset) (readValue .cmd) = some (some 4) := by
  decide
theorem test_write_frame1 :
    nextOf (busAccess (hostAccess 0x024 (.write 0xAABBCCDD)) State.reset) (fun t => (readValue .frame1 t, t.frame.b4))
      = some (some 0x00BBCCDD, 0xDD) := by decide
-- V10, V13, V14: bus errors change nothing but the agent's fault state.
theorem test_bus_errors :
    nextOf (busAccess (hostAccess 0x000 .read) inFlight) (fun t => (blockOf t == blockOf inFlight, t.host.fault))
        = some (true, some .writeOnly)
      ∧ nextOf (busAccess (hostAccess 0x1960 .read) inFlight) (fun t => t.host.fault) = some (some .unmapped)
      ∧ nextOf (busAccess (hostAccess 0x006 .read) inFlight) (fun t => t.host.fault) = some (some .misaligned) := by decide
-- V19.
theorem test_write_while_busy : nextOf (busAccess (hostAccess 0x008 (.write 1)) inFlight) countView = none := by decide
-- V15 and V17.
theorem test_reads_while_busy :
    readValue .status inFlight = some 0x01 ∧ readValue .frame0 inFlight = none ∧ readValue .cmd inFlight = some 0x4 := by decide
-- V1 and V2.
theorem test_reset_reads : readValue .status State.reset = some 0 ∧ readValue .capacity State.reset = some 0x258 := by decide
-- V160.
theorem test_reset_while_busy :
    nextOf (step { inFlight with inputs := [.reset] }) (fun t => (statusWord t, t.cmd)) = some (0x00, 0) := by decide
-- A request issued by the host: BUSY reads 1, and the LATENCY is at least one step whatever is drawn (R40).
theorem test_issue :
    nextOf (busAccess (hostAccess 0x000 (.write 0x305)) State.reset) (fun t => (statusWord t, t.pending))
      = some (0x01, some ⟨0x5, true, true, false⟩) := by decide
-- P1, step 5: the poll of an idle block ends with STATUS in the host's record.
theorem test_poll_idle :
    nextOf (step { State.reset with inputs := [.poll] }) (fun t => (t.inputs, t.host.reads)) = some ([], [(4, 0)]) := by decide
-- R112: `frame` is two register writes.
theorem test_assemble_frame :
    assemble [.frame frameU] = [wrInput .frame0 0x420029A0, wrInput .frame1 0x0000FECA] := by decide

/-! ## Witnesses: concrete states and operands that meet the premises of each statement, at boundary values -/

theorem nextOf_some {α : Type} {o : Host.Outcome State Fault Refusal} {f : State → α} {x : α} (h : nextOf o f = some x) :
    ∃ t, o = .next t ∧ f t = x := by
  cases o with
  | next t => exact ⟨t, rfl, by simpa [nextOf] using h⟩
  | fault _ => cases h
  | refused _ => cases h

/-- The RAW entries of one whole repeat, and one pulse in OUT. -/
def oneRepeat : State :=
  { State.reset with
    frame := frameOD, raw := (encodeRepeat frameOD true true).map entry, rawCount := 120
    out := [0x800024C7], outCount := 1 }

theorem oneRepeat_meets_invariants :
    LegalBuild oneRepeat ∧ CountsInRange oneRepeat ∧ ErrInRange oneRepeat ∧ OutDurationsBounded oneRepeat := by decide +kernel

theorem oneRepeat_wholeRepeats : WholeRepeats oneRepeat := ⟨[(frameOD, true, true)], by decide +kernel⟩

theorem oneRepeat_outAlternates : OutAlternates oneRepeat := by
  simp [OutAlternates, outList, outWords, oneRepeat, Alternates]

/-- A state whose next step completes the operation of the word `w`. -/
def ready (w : Word) (s : State) : State := readyRequest (capture w) s

theorem witness_StepRunsTheDecodedInstruction :
    (ready 0x305 oneRepeat).pending = some (capture 0x305) ∧ (ready 0x305 oneRepeat).wait = 0
      ∧ decode (capture 0x305) = .ok (.encodeRepeat true true)
      ∧ decodeTableWord 32 0x305 = some (.encodeRepeat true true) := ⟨rfl, rfl, by decide, by decide⟩

theorem witness_IllegalRequestOnlyReportsIllegalOp :
    (ready 0x009 handedOff).pending = some (capture 0x009) ∧ (ready 0x009 handedOff).wait = 0
      ∧ (0x9#4 ≤ (0x009 : Word).extractLsb' 0 4 ∧ (0x010 : Word).extractLsb' 4 4 ≠ 0 ∧ (0x400 : Word).extractLsb' 10 22 ≠ 0
        ∧ (0x107 : Word).getLsbD 8 = true ∧ (0x207 : Word).getLsbD 9 = true ∧ (0x107 : Word).extractLsb' 0 4 ≠ 0x5) := by decide

theorem witness_StepTakesTheNextInput :
    (∀ i ∈ [[], [Input.access (hostAccess 0x004 .read)], [.reset], [.poll]],
      let s := { State.reset with inputs := i }
      (s.pending = none → s.wait = 0) ∧ (s.pending ≠ none → s.wait ≠ 0))
    ∧ ∀ i ∈ [[], [Input.access (hostAccess 0x004 .read)], [.reset], [.poll]],
      let s := { inFlight with inputs := i }
      (s.pending = none → s.wait = 0) ∧ (s.pending ≠ none → s.wait ≠ 0) := by decide

/-- For the statements about an idle block: reset, and a state whose fields are not 0. -/
theorem witness_idle : State.reset.pending = none ∧ oneRepeat.pending = none := ⟨rfl, rfl⟩

theorem witness_PollEndsAfterTheLatency :
    let s := { inFlight with inputs := [.poll, .reset] }
    s.pending = some (capture 0x007) ∧ s.inputs = .poll :: [.reset] ∧ s.wait = 3 := by decide

/-- For `PendingOperationCompletes`: no input left, a read and a poll, and the last step before the completion. -/
theorem witness_PendingOperationCompletes :
    ∀ s ∈ [inFlight, { inFlight with inputs := [.access (hostAccess 0x020 .read), .poll, .reset], wait := 2 },
        { inFlight with inputs := [.reset], wait := 0 }],
      s.pending = some (capture 0x007)
        ∧ (s.inputs.take s.wait = [] ∨ s.inputs.take s.wait = [.access (hostAccess 0x020 .read), .poll]) := by decide

theorem witness_BuildFrameWritesTheFrame :
    (withParams 0x1 0 0 0).cmd = 0x1 ∧ (withParams 0x2 0 0 0).cmd = 0x2 ∧ (withParams 0x4 0 0 0).cmd = 0x4
      ∧ (withParams 0x8 0xFFFF 0xFFFFFFFF 0).cmd = 0x8
      ∧ ¬ (State.reset.cmd = 0x1 ∨ State.reset.cmd = 0x2 ∨ State.reset.cmd = 0x4 ∨ State.reset.cmd = 0x8) := by decide

theorem witness_EqualNeighboursInARepeat :
    ∀ j ∈ [7, 9, 119], ∃ p q, (encodeRepeat frameOD true false)[j]? = some p
      ∧ (encodeRepeat frameOD true false)[j + 1]? = some q ∧ p.level = q.level := by
  intro j hj
  simp only [List.mem_cons, List.not_mem_nil, or_false] at hj
  rcases hj with rfl | rfl | rfl
  · exact ⟨low 604, low 604, by decide +kernel, by decide +kernel, rfl⟩
  · exact ⟨high 604, high 604, by decide +kernel, by decide +kernel, rfl⟩
  · exact ⟨low 604, low 30415, by decide +kernel, by decide +kernel, rfl⟩

theorem witness_EncodeRepeatAppendsOrReports :
    ((withRawCount 480).rawCount.toNat ≤ (withRawCount 480).raw.length
        ∧ 480 + (encodeRepeat frameOD true true).length ≤ (withRawCount 480).capacity.toNat)
    ∧ (withRawCount 481).rawCount.toNat ≤ (withRawCount 481).raw.length
        ∧ (withRawCount 481).capacity.toNat < 481 + (encodeRepeat frameOD true true).length := by decide +kernel

theorem witness_ConsolidateLaws :
    Alternates [high 1, low 1]
      ∧ consolidate [low 1, low 2] = [] ++ [low 3] ∧ consolidate [low 5, high 6] = low 5 :: [high 6]
      ∧ consolidate [high 7] = high 7 :: [] :=
  ⟨by simp [Alternates, high, low], by decide, by decide, by decide⟩

theorem witness_ConsolidateHandsOffOrReports :
    (CountsInRange oneRepeat ∧ WholeRepeats oneRepeat ∧ oneRepeat.handed = false)
      ∧ (let s := { oneRepeat with handed := true }
        CountsInRange s ∧ WholeRepeats s ∧ s.handed = true) :=
  ⟨⟨oneRepeat_meets_invariants.2.1, oneRepeat_wholeRepeats, rfl⟩,
    oneRepeat_meets_invariants.2.1, oneRepeat_wholeRepeats, rfl⟩

/-- BUILD_TRANSMISSION with 4 repeats, the most that fit 600 entries. -/
def fourRepeats : State := withParams 0x4 42 0x112233 4

theorem witness_BuildTransmissionBuildsOrReports_errors :
    handedOff.handed = true
      ∧ (State.reset.handed = false
        ∧ ¬ (State.reset.cmd = 0x1 ∨ State.reset.cmd = 0x2 ∨ State.reset.cmd = 0x4 ∨ State.reset.cmd = 0x8))
      ∧ ((withParams 0x8 1 1 0).handed = false ∧ validCmd (withParams 0x8 1 1 0).cmd = true
        ∧ (withParams 0x8 1 1 0).repeats.toNat = 0) := by decide

theorem witness_BuildTransmissionBuildsOrReports_capacity :
    (fourRepeats.handed = false ∧ validCmd fourRepeats.cmd = true ∧ fourRepeats.repeats.toNat = 4)
      ∧ (repeatsOf (obfuscate (buildFrame 0x4 42 0x112233)) 4).length = 507
      ∧ (repeatsOf (obfuscate (buildFrame 0x4 42 0x112233)) 5).length = 636
      ∧ fourRepeats.capacity.toNat = 600 :=
  ⟨by decide, by simp [repeatsOf, List.range, List.range.loop, rawLen], by simp [repeatsOf, List.range, List.range.loop, rawLen], by decide⟩

/-- For `TransmissionLaws` and `TransmissionOutputLength`. -/
theorem witness_TransmissionLaws : ∃ t, exec .buildTransmission fourRepeats = .next t ∧ t.err = 0 :=
  nextOf_some (f := State.err) (by decide +kernel)

theorem witness_DecomposedPathAgreesWithBuildTransmission :
    (fourRepeats.handed = false ∧ validCmd fourRepeats.cmd = true ∧ 1 ≤ fourRepeats.repeats.toNat
        ∧ fourRepeats.repeats.toNat ≤ maxRepeats fourRepeats.capacity.toNat)
      ∧ 1 ≤ (withParams 0x4 42 0x112233 1).repeats.toNat := by decide

theorem witness_ErrorChangesOnlyErr : ∃ t, Machine.complete (capture 0x009) handedOff = .next t ∧ t.err = 4 :=
  nextOf_some (f := State.err) (by decide)

theorem witness_legal_builds :
    (LegalBuild { State.reset with capacity := 1 } ∧ CountsInRange { State.reset with capacity := 1 })
      ∧ LegalBuild { State.reset with capacity := 1024 } ∧ CountsInRange { State.reset with capacity := 1024 } := by
  decide

/-- The largest build, idle. -/
def largestBuild : State := { State.reset with capacity := 1024 }

/-- The smallest build, with an operation in flight. -/
def smallestBuild : State := { inFlight with capacity := 1 }

/-- Each case of R63 at a boundary: the last entries of the largest build are no bus error, the five cases are one. -/
theorem witness_BusErrorsAreExactly :
    (largestBuild.capacity.toNat ≤ 1024 ∧ busTarget (hostAccess 0x1FFC .read) largestBuild = .ok (.raw 1023)
        ∧ busTarget (hostAccess 0x2FFC .read) largestBuild = .ok (.out 1023)
        ∧ busTarget (hostAccess 0x2FFD .read) largestBuild = .error .misaligned)
      ∧ (busTarget (hostAccess 0x1004 .read) smallestBuild = .error .unmapped
        ∧ busTarget (hostAccess 0x2004 .read) smallestBuild = .error .unmapped
        ∧ busTarget (hostAccess 0x02C .read) smallestBuild = .error .unmapped
        ∧ busTarget (hostAccess 0x000 .read) smallestBuild = .error .writeOnly
        ∧ busTarget (hostAccess 0x028 (.write 1)) smallestBuild = .error .readOnly
        ∧ busTarget { hostAccess 0x004 .read with width := .w64 } smallestBuild = .error .width) := by decide

theorem witness_BusErrorOnlyFaultsTheAgent :
    busTarget (hostAccess 0x2FFC .read) State.reset = .error .unmapped
      ∧ (let s := { State.reset with host := { fault := some .width, reads := [] } }
        s.host.fault ≠ none ∧ nextOf (step s) (fun t => t.host.fault) = some (some .width)) := by decide

theorem witness_WriteWhileBusyIsRefused :
    inFlight.pending ≠ none ∧ busTarget (hostAccess 0x000 (.write 1)) inFlight = .ok .opreq := by decide

theorem witness_StepStopsOnlyAtTheBus :
    step { State.reset with inputs := [.access (hostAccess 0x3000 .read)] } = .fault (.outsideWindow .host 0x3000)
      ∧ step { inFlight with inputs := [.access (hostAccess 0x008 (.write 1))] } = .refused (.writeWhileBusy .host 0x008) :=
  ⟨rfl, rfl⟩

theorem witness_ReadReturnsItsValueAndChangesNothing :
    busTarget (hostAccess 0x010 .read) inFlight = .ok .rc ∧ readValue .rc inFlight = some 0
      ∧ busTarget (hostAccess 0x020 .read) inFlight = .ok .frame0 ∧ readValue .frame0 inFlight = none := by decide

theorem witness_ReadsWhileBusy :
    inFlight.pending ≠ none ∧ inFlight.handed = false
      ∧ (let s := { inFlight with out := [7], outCount := 1, handed := true }
        s.pending ≠ none ∧ s.handed = true ∧ 0 < s.outCount.toNat ∧ s.outCount.toNat ≤ 1) := by decide

theorem witness_EntriesAboveTheCountAreUnspecified :
    CountsInRange oneRepeat ∧ oneRepeat.pending = none ∧ 119 < oneRepeat.rawCount.toNat ∧ oneRepeat.rawCount.toNat ≤ 120
      ∧ 0 < oneRepeat.outCount.toNat ∧ oneRepeat.outCount.toNat ≤ 1 := by decide +kernel

theorem witness_ResetInputResetsTheBlock :
    let s := { inFlight with inputs := [.reset] }
    s.inputs.head? = some .reset ∧ s.wait ≠ 0 := by decide

/-- For the invariants: a state that meets them all and whose next step is a CONSOLIDATE that succeeds. -/
theorem witness_StepKeepsInvariants :
    (∃ t, step (ready 0x006 oneRepeat) = .next t ∧ t.handed = true)
      ∧ LegalBuild (ready 0x006 oneRepeat) ∧ CountsInRange (ready 0x006 oneRepeat) ∧ ErrInRange (ready 0x006 oneRepeat)
      ∧ OutDurationsBounded (ready 0x006 oneRepeat) ∧ WholeRepeats (ready 0x006 oneRepeat)
      ∧ OutAlternates (ready 0x006 oneRepeat) ∧ WaitForPendingOnly (ready 0x006 oneRepeat) :=
  ⟨nextOf_some (by decide +kernel), oneRepeat_meets_invariants.1, oneRepeat_meets_invariants.2.1,
    oneRepeat_meets_invariants.2.2.1, oneRepeat_meets_invariants.2.2.2, oneRepeat_wholeRepeats, oneRepeat_outAlternates,
    nofun⟩

/-- For `HandedOffOutputIsImmutable` and `HandedChangesOnlyByItsRules`: a step that keeps the handoff, one that ends it by
RELEASE, one that ends it by reset, and one that begins it. -/
theorem witness_HandedOffOutputIsImmutable :
    (∃ t, step (ready 0x004 handedOff) = .next t ∧ t.handed = true)
      ∧ (∃ t, step (ready 0x008 handedOff) = .next t ∧ t.handed = false)
      ∧ (∃ t, step { handedOff with inputs := [.reset] } = .next t ∧ t.handed = false)
      ∧ (∃ t, exec .consolidate State.reset = .next t ∧ (t.err, t.handed) = (0, true)) :=
  ⟨nextOf_some (by decide), nextOf_some (by decide), nextOf_some (by decide), nextOf_some (by decide)⟩

theorem witness_ParameterRegistersChangeOnlyByWrites :
    ∃ t, step { State.reset with inputs := [.access (hostAccess 0x008 (.write 4))] } = .next t ∧ t.cmd = 4 :=
  nextOf_some (by decide)

theorem witness_DriverReadsTheHandedOffSequence :
    LegalBuild handedOff ∧ CountsInRange handedOff ∧ handedOff.handed = true ∧ 0 < handedOff.outCount.toNat := by decide

theorem witness_WindowIsFoundFromTheBusAddress : windowOffset (busAddress 0x2FFF) = some 0x2FFF := by
  simp [windowOffset, busAddress, windowSize]

end Sys2Proof.Machine.Tests
end

section
/-! SUPPORT. The error code a failing operation reports, and what a completion does to HANDED (R26, R240). -/

namespace Sys2Proof.Machine

/-- Code 0 is OK and nothing else (R240). -/
@[simp] theorem ErrCode.code_eq_zero_iff (e : ErrCode) : e.code = 0#4 ↔ e = .ok := by
  cases e <;> simp [ErrCode.code]

/-- A transmission that is not built is reported with a code other than OK (R212). -/
theorem buildTransmission_error_ne_ok {cap : Nat} {cmd : Nibble} {rc : BitVec 16} {addr : Word} {n : BitVec 8}
    {e : ErrCode} (h : buildTransmission cap cmd rc addr n = .error e) : e ≠ .ok := by
  rintro rfl
  simp only [buildTransmission] at h
  split at h
  · cases h
  split at h
  · cases h
  split at h
  · cases h
  split at h <;> cases h

/-- The two operations that write OUT: with HANDED = 1 they report OutputLocked, which changes nothing else (R243). -/
theorem exec_consolidate_of_handed {s : State} (hs : s.handed = true) :
    exec .consolidate s = .next (raiseError .outputLocked s) := by
  simp [exec, execConsolidate, hs]

theorem exec_buildTransmission_of_handed {s : State} (hs : s.handed = true) :
    exec .buildTransmission s = .next (raiseError .outputLocked s) := by
  simp [exec, execBuildTransmission, hs]

/-- What CONSOLIDATE and BUILD_TRANSMISSION do to HANDED: a failure keeps it, a success sets it. -/
theorem handed_of_writes_out {s t : State} (h : exec .consolidate s = .next t ∨ exec .buildTransmission s = .next t) :
    (t.err ≠ 0 ∧ t.handed = s.handed) ∨ (t.err = 0 ∧ t.handed = true) := by
  rcases h with h | h
  · rcases execConsolidate_cases h with ⟨-, rfl⟩ | ⟨-, -, rfl⟩ | ⟨-, -, rfl⟩ <;> simp
  · rcases execBuildTransmission_cases h with ⟨-, rfl⟩ | ⟨e, -, he, rfl⟩ | ⟨o, raw, out, -, -, rfl⟩
    · simp
    · simp [buildTransmission_error_ne_ok he]
    · simp

/-- RELEASE always succeeds and clears HANDED (R225). -/
theorem exec_release (s : State) : exec .release s = .next (succeed (setHanded false s)) := rfl

/-- An operation that changes HANDED is one of the three of R26, in its own direction, and it succeeded. -/
theorem exec_handed_changed {i : Instr} {s t : State} (h : exec i s = .next t) (hne : t.handed ≠ s.handed) :
    t.err = 0 ∧ ((t.handed = true ∧ (i = .consolidate ∨ i = .buildTransmission)) ∨ (t.handed = false ∧ i = .release)) := by
  cases i
  case consolidate => rcases handed_of_writes_out (.inl h) with ⟨-, hk⟩ | ⟨he, ht⟩ <;> simp_all
  case buildTransmission => rcases handed_of_writes_out (.inr h) with ⟨-, hk⟩ | ⟨he, ht⟩ <;> simp_all
  case release => cases h; simp
  all_goals refine absurd ?_ hne
  case buildFrame => rcases execBuildFrame_cases h with ⟨-, rfl⟩ | ⟨-, rfl⟩ <;> simp
  case encodeRepeat => rcases execEncodeRepeat_cases h with ⟨-, rfl⟩ | ⟨-, rfl⟩ <;> simp
  all_goals cases h; simp

/-- A step that changes HANDED is a reset that clears it, or the completion of an operation that changes it. -/
theorem step_handed_changed {s t : State} (h : step s = .next t) (hne : t.handed ≠ s.handed) :
    (s.inputs.head? = some .reset ∧ (s.pending = none ∨ s.wait ≠ 0) ∧ t.handed = false)
      ∨ (∃ r i, s.pending = some r ∧ s.wait = 0 ∧ decode r = .ok i ∧ exec i s = .next t) := by
  rcases step_results h with ⟨r, hp, hw, hc⟩ | hsame | ⟨hi, hq, u, rfl, -⟩
  · rcases complete_cases hc with ⟨c, -, rfl⟩ | ⟨i, hd, hx⟩
    · exact absurd (raiseError_handed ..) hne
    · exact .inr ⟨r, i, hp, hw, hd, hx⟩
  · exact absurd hsame.handed hne
  · exact .inl ⟨hi, hq, rfl⟩

/-- Settles O51: what a completion does to HANDED, and that no other step but a reset touches it. -/
theorem handedChangesOnlyByItsRules : Obligations.HandedChangesOnlyByItsRules := by
  unfold Obligations.HandedChangesOnlyByItsRules
  refine ⟨fun s t h he => ?set, fun s => ⟨_, exec_release s, rfl⟩, fun s t h hne => ?change,
    fun s hs => ⟨exec_consolidate_of_handed hs, exec_buildTransmission_of_handed hs⟩⟩
  case set =>
    rcases handed_of_writes_out h with ⟨hn, -⟩ | ⟨-, ht⟩
    · exact absurd he hn
    · exact ht
  case change =>
    rcases step_handed_changed h hne with hreset | ⟨r, i, hp, hw, hd, hx⟩
    · exact .inl hreset
    · obtain ⟨he, ⟨ht, rfl | rfl⟩ | ⟨ht, rfl⟩⟩ := exec_handed_changed hx hne
      · exact .inr ⟨r, hp, hw, he, .inl ⟨ht, .inl hd⟩⟩
      · exact .inr ⟨r, hp, hw, he, .inl ⟨ht, .inr hd⟩⟩
      · exact .inr ⟨r, hp, hw, he, .inr ⟨ht, hd⟩⟩

end Sys2Proof.Machine
end

section
/-! SUPPORT. The words of the opcode map and the illegal words, by their bits (R91, R93). -/

namespace Sys2Proof

open Machine (Request)

/-- The word of an instruction decodes to it (R96). -/
@[simp] theorem decodeWord_encode (i : Instr) : decodeWord (encode i) = .ok i := by
  cases i
  case encodeRepeat first last => cases first <;> cases last <;> decide
  all_goals decide

/-- A word that has every bit above OP at 0 is captured as its OP value alone (R38). -/
theorem capture_zeroExtend (op : Nibble) : capture (op.zeroExtend 32) = ⟨op, false, false, false⟩ := by
  revert op
  decide

/-- The OP values that name no operation (R91). -/
theorem decode_reservedOp (op : Nibble) : (op = 0x0 ∨ 0x9 ≤ op) →
    decode ⟨op, false, false, false⟩ = .error .reservedOp := by
  revert op
  decide

/-- Settles O1: the legal words are those of `encode`, and the other OP values are reserved. -/
theorem opcodeMapWordsDecode : Obligations.OpcodeMapWordsDecode := by
  unfold Obligations.OpcodeMapWordsDecode
  refine ⟨decodeWord_encode .buildFrame, decodeWord_encode .obfuscate, decodeWord_encode .deobfuscate,
    decodeWord_encode .clearRaw, decodeWord_encode (.encodeRepeat false false),
    decodeWord_encode (.encodeRepeat true false), decodeWord_encode (.encodeRepeat false true),
    decodeWord_encode (.encodeRepeat true true), decodeWord_encode .consolidate,
    decodeWord_encode .buildTransmission, decodeWord_encode .release, fun op hop => ?reserved⟩
  case reserved => rw [decodeWord, capture_zeroExtend, decode_reservedOp op hop]

/-- An OP value is outside 1 to 8 exactly when the map reserves it (R91). -/
theorem opReserved_iff (op : Nibble) : ¬ (1 ≤ op.toNat ∧ op.toNat ≤ 8) ↔ op = 0x0 ∨ 0x9 ≤ op := by
  revert op
  decide

/-- The three reasons a request is illegal (R93). -/
theorem Machine.Request.wf_eq_false_iff (r : Request) : r.wf = false ↔
    (r.op = 0x0 ∨ 0x9 ≤ r.op) ∨ r.rsvd = true ∨ ((r.first = true ∨ r.last = true) ∧ r.op ≠ 0x5) := by
  rw [← opReserved_iff, ← Bool.not_eq_true]
  simp only [Request.wf, Bool.and_eq_true, Bool.or_eq_true, Bool.not_eq_true', decide_eq_true_eq, beq_iff_eq,
    Bool.eq_false_iff]
  tauto

/-- The captured request of a word is illegal exactly for the reasons of R93, in the bits of the word. -/
theorem wf_capture_eq_false_iff (w : Word) : (capture w).wf = false ↔
    (w.extractLsb' 0 4 = 0x0 ∨ 0x9 ≤ w.extractLsb' 0 4) ∨ w.extractLsb' 4 4 ≠ 0 ∨ w.extractLsb' 10 22 ≠ 0
      ∨ ((w.getLsbD 8 = true ∨ w.getLsbD 9 = true) ∧ w.extractLsb' 0 4 ≠ 0x5) := by
  simp [Request.wf_eq_false_iff, capture, or_assoc]

/-- The decoder rejects every request that is not legal (R93). -/
theorem decode_error_of_not_wf {r : Request} (h : r.wf = false) : ∃ c, decode r = .error c := by
  cases hd : decode r with
  | error c => exact ⟨c, rfl⟩
  | ok i => simp [(decode_isOk_iff_wf r).mp ⟨i, hd⟩] at h

namespace Machine

/-- Once LATENCY is over, the step is the completion of the pending request (R40 step 2). -/
theorem step_of_ready {s : State} {r : Request} (hp : s.pending = some r) (hw : s.wait = 0) :
    step s = Machine.complete r s := by
  simp [step, machineStep, hp, hw]

/-- The completion of an illegal request raises IllegalOp, and that is all (R92, R93). -/
theorem complete_of_not_wf {r : Request} (h : r.wf = false) (s : State) :
    Machine.complete r s = .next (raiseError .illegalOp s) := by
  obtain ⟨c, hc⟩ := decode_error_of_not_wf h
  simp [Machine.complete, hc]

/-- Settles O5: the word's request is not legal, so its completion raises IllegalOp. -/
theorem illegalRequestOnlyReportsIllegalOp : Obligations.IllegalRequestOnlyReportsIllegalOp := by
  unfold Obligations.IllegalRequestOnlyReportsIllegalOp
  intro s w hp hw hillegal
  have hwf : (capture w).wf = false := (wf_capture_eq_false_iff w).mpr hillegal
  calc step s = Machine.complete (capture w) s := step_of_ready hp hw
    _ = .next (raiseError .illegalOp s) := complete_of_not_wf hwf s
    _ = .next { s with err := 4, pending := none } := rfl

end Machine
end Sys2Proof
end

section
/-! SUPPORT. The frame that BUILD_FRAME writes and its two answers (R121, R122, R124, R125). -/

namespace Sys2Proof.Machine

/-- The legal command codes (R100). -/
theorem validCmd_iff (c : Nibble) : validCmd c = true ↔ c = 0x1 ∨ c = 0x2 ∨ c = 0x4 ∨ c = 0x8 := by
  simp [validCmd, or_assoc]

/-- The key byte's nibbles are 0xA and 0 (R122). -/
@[simp] theorem hiNibble_key : hiNibble Config.key = 0xA := by decide

@[simp] theorem loNibble_key : loNibble Config.key = 0 := by decide

/-- The checksum is the XOR of the nibbles of KEY, the command, the rolling code and the low 24 address bits (R122). -/
theorem checksum_frameBody (cmd : Nibble) (rc : BitVec 16) (addr : Word) : checksum (frameBody cmd rc addr) =
    0xA#4 ^^^ cmd
      ^^^ rc.extractLsb' 12 4 ^^^ rc.extractLsb' 8 4 ^^^ rc.extractLsb' 4 4 ^^^ rc.extractLsb' 0 4
      ^^^ addr.extractLsb' 20 4 ^^^ addr.extractLsb' 16 4 ^^^ addr.extractLsb' 12 4
      ^^^ addr.extractLsb' 8 4 ^^^ addr.extractLsb' 4 4 ^^^ addr.extractLsb' 0 4 := by
  simp only [checksum, Frame.bytes, frameBody, List.foldl, hiNibble_key, loNibble_key, hiNibble_high, loNibble_high,
    hiNibble_field, loNibble_field, BitVec.ofNat_eq_ofNat, BitVec.zero_xor, BitVec.xor_zero, Nat.reduceAdd]

/-- A built frame is its body with the checksum in the lower nibble of byte 1 (R121). -/
theorem buildFrame_eq (cmd : Nibble) (rc : BitVec 16) (addr : Word) : buildFrame cmd rc addr =
    { frameBody cmd rc addr with
      b1 := cmd.zeroExtend 8 <<< 4 ||| (checksum (frameBody cmd rc addr)).zeroExtend 8 } := rfl

/-- With a legal command, BUILD_FRAME succeeds and only FRAME takes a new value (R125). -/
theorem exec_buildFrame_of_valid {s : State} (h : validCmd s.cmd = true) :
    exec .buildFrame s = .next (succeed (putFrame (buildFrame s.cmd s.rc s.addr) s)) := by
  simp [exec, execBuildFrame, cmdOperand, rcOperand, addrOperand, h]

/-- With any other command, BUILD_FRAME only reports InvalidCommand (R124). -/
theorem exec_buildFrame_of_invalid {s : State} (h : validCmd s.cmd ≠ true) :
    exec .buildFrame s = .next (raiseError .invalidCommand s) := by
  simp [exec, execBuildFrame, cmdOperand, h]

/-- Settles O10: the command decides between the two answers, and the frame built is R121's with R122's checksum. -/
theorem buildFrameWritesTheFrame : Obligations.BuildFrameWritesTheFrame := by
  unfold Obligations.BuildFrameWritesTheFrame
  refine ⟨decodeWord_encode .buildFrame, fun s => ⟨fun hcmd => ?valid, fun hcmd => ?invalid⟩⟩
  case valid =>
    rw [exec_buildFrame_of_valid ((validCmd_iff s.cmd).mpr hcmd), buildFrame_eq, checksum_frameBody]
    rfl
  case invalid =>
    rw [← validCmd_iff] at hcmd
    rw [exec_buildFrame_of_invalid hcmd]
    rfl

end Sys2Proof.Machine
end

section
/-! SUPPORT. The two byte chains, byte by byte, and the answers of OBFUSCATE and DEOBFUSCATE (R140, R141, R144, R145). -/

namespace Sys2Proof.Machine

/-- A completion that succeeds with a new frame changes FRAME, ERR and the pending request, and nothing else. -/
theorem succeed_putFrame (f : Frame) (s : State) :
    succeed (putFrame f s) = { s with frame := f, err := 0, pending := none } := rfl

/-- OBFUSCATE always succeeds, and only FRAME takes a new value (R144). -/
theorem exec_obfuscate (s : State) :
    exec .obfuscate s = .next (succeed (putFrame (obfuscate s.frame) s)) := rfl

/-- DEOBFUSCATE always succeeds, and only FRAME takes a new value (R145). -/
theorem exec_deobfuscate (s : State) :
    exec .deobfuscate s = .next (succeed (putFrame (deobfuscate s.frame) s)) := rfl

@[simp] theorem obfuscate_byte_zero (f : Frame) : (obfuscate f).byte 0 = f.byte 0 := rfl

@[simp] theorem deobfuscate_byte_zero (f : Frame) : (deobfuscate f).byte 0 = f.byte 0 := rfl

/-- One step of the chain of R140 reads the byte before it as already updated. Not a `simp` lemma: its right side
mentions `obfuscate` again. -/
theorem obfuscate_byte_succ (f : Frame) (i : Fin 6) :
    (obfuscate f).byte i.succ = f.byte i.succ ^^^ (obfuscate f).byte i.castSucc := by
  fin_cases i <;> rfl

/-- One step of R141 reads the original byte before it. -/
@[simp] theorem deobfuscate_byte_succ (f : Frame) (i : Fin 6) :
    (deobfuscate f).byte i.succ = f.byte i.succ ^^^ f.byte i.castSucc := by
  fin_cases i <;> rfl

/-- Settles O12: the new frame is the old one obfuscated, whose bytes obey the chain of R140. -/
theorem obfuscateChainsTheUpdatedBytes : Obligations.ObfuscateChainsTheUpdatedBytes := by
  unfold Obligations.ObfuscateChainsTheUpdatedBytes
  refine ⟨decodeWord_encode .obfuscate, fun s => ⟨obfuscate s.frame, ?answer, obfuscate_byte_zero s.frame,
    obfuscate_byte_succ s.frame⟩⟩
  case answer => rw [exec_obfuscate, succeed_putFrame]

/-- Settles O13: the new frame is the old one de-obfuscated, whose bytes are those of R141. -/
theorem deobfuscateReadsTheOriginalBytes : Obligations.DeobfuscateReadsTheOriginalBytes := by
  unfold Obligations.DeobfuscateReadsTheOriginalBytes
  refine ⟨decodeWord_encode .deobfuscate, fun s => ⟨deobfuscate s.frame, ?answer, deobfuscate_byte_zero s.frame,
    deobfuscate_byte_succ s.frame⟩⟩
  case answer => rw [exec_deobfuscate, succeed_putFrame]

end Sys2Proof.Machine
end

section
/-! SUPPORT. The pulses of a repeat by position, and the answers of CLEAR_RAW and ENCODE_REPEAT (R161 to R164, R170 to
R172). -/

namespace Sys2Proof.Machine

/-- In a concatenation of blocks of `n` items, item `k` of block `i` stands at `n * i + k`. -/
theorem getElem?_flatMap_of_length {α β : Type} {f : α → List β} {n : Nat} (hf : ∀ a, (f a).length = n) {l : List α}
    {i k : Nat} {a : α} (hi : l[i]? = some a) (hk : k < n) : (l.flatMap f)[n * i + k]? = (f a)[k]? := by
  induction l generalizing i with
  | nil => simp at hi
  | cons b l ih =>
    rw [List.flatMap_cons]
    cases i with
    | zero =>
      obtain rfl : b = a := by simpa using hi
      rw [Nat.mul_zero, Nat.zero_add, List.getElem?_append_left (by rwa [hf])]
    | succ i =>
      have hpos : n * (i + 1) + k = (f b).length + (n * i + k) := by rw [hf]; ring
      rw [hpos, List.getElem?_append_right (Nat.le_add_right ..), Nat.add_sub_cancel_left]
      exact ih (by simpa using hi)

/-- A bit is the half symbol of the opposite level, then the one of its own level (R161). -/
theorem manchesterBit_eq (b : Bool) : manchesterBit b = [{ level := !b, dur := 604 }, { level := b, dur := 604 }] := by
  cases b <;> rfl

@[simp] theorem manchesterBit_length (b : Bool) : (manchesterBit b).length = 2 := by
  rw [manchesterBit_eq]
  rfl

@[simp] theorem byteBits_length (b : Byte) : (byteBits b).length = 8 := rfl

/-- A byte is sent with bit 7 first (R162). -/
theorem byteBits_getElem? (b : Byte) (k : Fin 8) : (byteBits b)[k.val]? = some (b.getLsbD (7 - k.val)) := by
  fin_cases k <;> rfl

theorem Frame.bytes_getElem? (o : Frame) (i : Fin 7) : o.bytes[i.val]? = some (o.byte i) := by
  fin_cases i <;> rfl

/-- Bit `k` of byte `i`, both in transmission order, is bit `8i + k` of the payload stream (R162). -/
theorem payloadBits_getElem? (o : Frame) (i : Fin 7) (k : Fin 8) :
    (payloadBits o)[8 * i.val + k.val]? = some ((o.byte i).getLsbD (7 - k.val)) := by
  rw [payloadBits, getElem?_flatMap_of_length byteBits_length (o.bytes_getElem? i) k.isLt, byteBits_getElem?]

/-- Bit `m` of the payload stream is the two pulses from `2m` on (R161, R162). -/
theorem manchester_getElem?_of_payloadBits {o : Frame} {m : Nat} {b : Bool} (h : (payloadBits o)[m]? = some b) :
    (manchester o)[2 * m]? = some { level := !b, dur := 604 }
      ∧ (manchester o)[2 * m + 1]? = some { level := b, dur := 604 } := by
  have hpulse (k : Nat) (hk : k < 2) : (manchester o)[2 * m + k]? = (manchesterBit b)[k]? :=
    getElem?_flatMap_of_length manchesterBit_length h hk
  rw [manchesterBit_eq] at hpulse
  exact ⟨hpulse 0 (by decide), hpulse 1 (by decide)⟩

/-- Settles O15: the payload stream holds bit `7 - k` of byte `i` at `8i + k`, and each of its bits is two pulses. -/
theorem manchesterEncodesMsbFirst : Obligations.ManchesterEncodesMsbFirst := by
  unfold Obligations.ManchesterEncodesMsbFirst
  exact fun o => ⟨manchester_length o, fun i k => manchester_getElem?_of_payloadBits (payloadBits_getElem? o i k)⟩

/-- The framing written out, with the durations of R160 (R163, R164). -/
theorem framing_eq (first : Bool) : framing first =
    (let pair := [Pulse.mk true 2416, Pulse.mk false 2416]
     if first then [Pulse.mk true 9415, Pulse.mk false 89565] ++ (pair ++ pair)
     else pair ++ pair ++ pair ++ pair ++ pair ++ pair ++ pair)
      ++ [Pulse.mk true 4550, Pulse.mk false 604] := by
  cases first <;> rfl

theorem gap_eq : gap = [Pulse.mk false 30415] := rfl

/-- Settles O16: the framing by `first`, then the payload, then the gap. -/
theorem repeatIsFramedAsTheSpecSays : Obligations.RepeatIsFramedAsTheSpecSays := by
  unfold Obligations.RepeatIsFramedAsTheSpecSays
  intro o first last
  rw [encodeRepeat, framing_eq, gap_eq]

/-- CLEAR_RAW always succeeds, and only RAW_COUNT takes a new value (R171). -/
theorem exec_clearRaw (s : State) : exec .clearRaw s = .next (succeed (emptyRaw s)) := rfl

/-- An entry at or above the count is unspecified (R35, R36, R43). -/
theorem entryAt_of_count_le {buf : List Word} {count : BitVec 16} {j : Nat} (h : count.toNat ≤ j) :
    entryAt buf count j = none := by
  rw [entryAt, if_neg (Nat.not_lt.mpr h)]

/-- A RAW entry at or above RAW_COUNT reads as unspecified, whether BUSY is 0 or 1 (R35, R68). -/
theorem readValue_raw_of_count_le {s : State} {j : Nat} (h : s.rawCount.toNat ≤ j) : readValue (.raw j) s = none := by
  rw [readValue, idleValue, entryAt_of_count_le h, ite_self]

/-- Settles O19: after CLEAR_RAW the count is 0, and no entry is below it. -/
theorem clearRawEmptiesTheRawBuffer : Obligations.ClearRawEmptiesTheRawBuffer := by
  unfold Obligations.ClearRawEmptiesTheRawBuffer
  exact ⟨decodeWord_encode .clearRaw,
    fun s => ⟨_, exec_clearRaw s, rfl, fun j => readValue_raw_of_count_le (Nat.zero_le j)⟩⟩

/-- The word of ENCODE_REPEAT has FIRST in bit 8 and LAST in bit 9 (R90, R96). -/
theorem encode_encodeRepeat (first last : Bool) : encode (.encodeRepeat first last) =
    0x00000005#32 ||| ((BitVec.ofBool first).zeroExtend 32 <<< 8) ||| ((BitVec.ofBool last).zeroExtend 32 <<< 9) := by
  cases first <;> cases last <;> rfl

/-- When the repeat fits, ENCODE_REPEAT stores it from RAW_COUNT on (R172). -/
theorem exec_encodeRepeat_of_le {first last : Bool} {s : State}
    (h : s.rawCount.toNat + (encodeRepeat s.frame first last).length ≤ s.capacity.toNat) :
    exec (.encodeRepeat first last) s
      = .next (succeed (storeRaw s.rawCount.toNat (encodeRepeat s.frame first last) s)) :=
  if_neg (Nat.not_lt.mpr h)

/-- When it does not fit, ENCODE_REPEAT only reports CapacityExceeded (R170). -/
theorem exec_encodeRepeat_of_lt {first last : Bool} {s : State}
    (h : s.capacity.toNat < s.rawCount.toNat + (encodeRepeat s.frame first last).length) :
    exec (.encodeRepeat first last) s = .next (raiseError .capacityExceeded s) :=
  if_pos h

/-- Settles O20: the capacity decides between the two answers; the count and the entries of an append are those of
`storeAt`. -/
theorem encodeRepeatAppendsOrReports : Obligations.EncodeRepeatAppendsOrReports := by
  unfold Obligations.EncodeRepeatAppendsOrReports
  refine ⟨fun first last => ?word, fun s first last hbuf => ⟨fun hfits => ?appends, exec_encodeRepeat_of_lt⟩⟩
  case word => rw [← encode_encodeRepeat, decodeWord_encode]
  case appends =>
    refine ⟨_, exec_encodeRepeat_of_le hfits, rfl, ?count, fun j x hx => ?stored, fun j hj => ?other⟩
    case count => exact Nat.mod_eq_of_lt (lt_of_le_capOf hfits)
    case stored =>
      obtain ⟨hj, -⟩ := List.getElem?_eq_some_iff.mp hx
      rw [succeed_raw, storeRaw_raw, storeAt_get_stored _ hbuf (by rwa [List.length_map]), List.getElem?_map, hx,
        Option.map_some]
    case other => exact storeAt_get_other _ hbuf (by rwa [List.length_map])

end Sys2Proof.Machine
end

section
/-! SUPPORT. The forward pass of R190 keeps the total duration and does not lengthen; the durations of a RAWLIST of whole
repeats; and the answers of CONSOLIDATE (R191, R195, R196, R198). -/

namespace Sys2Proof.Machine

@[simp] theorem totalDur_nil : totalDur [] = 0 := rfl

@[simp] theorem totalDur_cons (p : Pulse) (ps : List Pulse) : totalDur (p :: ps) = p.dur + totalDur ps := rfl

@[simp] theorem totalDur_append (ps qs : List Pulse) : totalDur (ps ++ qs) = totalDur ps + totalDur qs := by
  simp [totalDur]

@[simp] theorem totalDur_reverse (ps : List Pulse) : totalDur ps.reverse = totalDur ps := by
  simp [totalDur]

/-- No pulse lasts longer than the list it stands in. -/
theorem dur_le_totalDur {p : Pulse} {ps : List Pulse} (h : p ∈ ps) : p.dur ≤ totalDur ps :=
  List.le_sum_of_mem (List.mem_map_of_mem h)

/-- One step of the forward pass adds the pulse's duration, into the last pulse or as a new one (R190). -/
@[simp] theorem totalDur_mergePulse (out : List Pulse) (p : Pulse) :
    totalDur (mergePulse out p) = totalDur out + p.dur := by
  cases out with
  | nil => simp [mergePulse]
  | cons q rest =>
    rw [mergePulse]
    split <;> simp <;> omega

/-- One step of the forward pass emits at most one pulse (R190). -/
theorem mergePulse_length_le (out : List Pulse) (p : Pulse) : (mergePulse out p).length ≤ out.length + 1 := by
  cases out with
  | nil => simp [mergePulse]
  | cons q rest =>
    rw [mergePulse]
    split <;> simp

theorem totalDur_foldl_mergePulse (out raw : List Pulse) :
    totalDur (raw.foldl mergePulse out) = totalDur out + totalDur raw := by
  induction raw generalizing out with
  | nil => simp
  | cons p raw ih => rw [List.foldl_cons, ih, totalDur_mergePulse, totalDur_cons, Nat.add_assoc]

theorem foldl_mergePulse_length_le (out raw : List Pulse) :
    (raw.foldl mergePulse out).length ≤ out.length + raw.length := by
  induction raw generalizing out with
  | nil => simp
  | cons p raw ih =>
    have hstep := mergePulse_length_le out p
    have hrest := ih (mergePulse out p)
    rw [List.foldl_cons, List.length_cons]
    omega

/-- Consolidation keeps the sum of the durations (R191). -/
@[simp] theorem totalDur_consolidate (raw : List Pulse) : totalDur (consolidate raw) = totalDur raw := by
  rw [consolidate, totalDur_reverse, totalDur_foldl_mergePulse, totalDur_nil, Nat.zero_add]

/-- Consolidation does not lengthen a list (R191). -/
theorem consolidate_length_le (raw : List Pulse) : (consolidate raw).length ≤ raw.length := by
  have := foldl_mergePulse_length_le [] raw
  rwa [List.length_nil, Nat.zero_add, ← List.length_reverse] at this

/-- Each bit lasts two half symbols, whatever its value (R161). -/
theorem totalDur_flatMap_manchesterBit (bs : List Bool) : totalDur (bs.flatMap manchesterBit) = 1208 * bs.length := by
  induction bs with
  | nil => rfl
  | cons b bs ih =>
    rw [List.flatMap_cons, totalDur_append, ih, List.length_cons, manchesterBit_eq]
    simp
    omega

/-- The payload lasts the same for every frame: 112 half symbols (R162). -/
@[simp] theorem totalDur_manchester (o : Frame) : totalDur (manchester o) = 67648 := by
  rw [manchester, totalDur_flatMap_manchesterBit, payloadBits_length]

/-- A repeat lasts less than 2000 microseconds for each of its pulses: the few long pulses are outweighed by the 112 of
the payload (R165, R166). -/
theorem totalDur_encodeRepeat_le (o : Frame) (first last : Bool) :
    totalDur (encodeRepeat o first last) ≤ 2000 * (encodeRepeat o first last).length := by
  rw [encodeRepeat_length, encodeRepeat, totalDur_append, totalDur_append, totalDur_manchester]
  cases first <;> cases last <;> decide

/-- The same bound holds of any number of repeats. -/
theorem totalDur_flatMap_encodeRepeat_le (rs : List (Frame × Bool × Bool)) :
    totalDur (rs.flatMap fun r => encodeRepeat r.1 r.2.1 r.2.2)
      ≤ 2000 * (rs.flatMap fun r => encodeRepeat r.1 r.2.1 r.2.2).length := by
  induction rs with
  | nil => simp
  | cons r rs ih =>
    have hr := totalDur_encodeRepeat_le r.1 r.2.1 r.2.2
    rw [List.flatMap_cons, totalDur_append, List.length_append]
    omega

theorem rawWords_length_lt (s : State) : (rawWords s).length < 2 ^ 16 :=
  Nat.lt_of_le_of_lt (List.length_take_le ..) s.rawCount.isLt

/-- A RAWLIST of whole repeats lasts less than `2 ^ 31` microseconds altogether, so no sum of its durations overflows an
entry word (R198). -/
theorem totalDur_rawList_lt {s : State} (h : WholeRepeats s) : totalDur (rawList s) < 2 ^ 31 := by
  obtain ⟨rs, hrs⟩ := h
  have htotal := totalDur_flatMap_encodeRepeat_le rs
  have hlen := rawWords_length_lt s
  rw [hrs, List.length_map] at hlen
  rw [rawList, hrs, map_pulseOf_entry]
  · omega
  · intro p hp
    have := dur_le_totalDur hp
    omega

/-- Every pulse CONSOLIDATE forms from whole repeats fits the DUR field (R198). -/
theorem dur_lt_of_mem_consolidate {s : State} (h : WholeRepeats s) {p : Pulse} (hp : p ∈ consolidate (rawList s)) :
    p.dur < 2 ^ 31 := by
  have hle := dur_le_totalDur hp
  rw [totalDur_consolidate] at hle
  exact Nat.lt_of_le_of_lt hle (totalDur_rawList_lt h)

/-- The consolidated RAWLIST fits the OUT buffer: the check of R196 never fires. -/
theorem consolidate_rawList_length_le {s : State} (h : CountsInRange s) :
    (consolidate (rawList s)).length ≤ capOf s := by
  obtain ⟨-, hcap, -⟩ := h
  calc (consolidate (rawList s)).length ≤ (rawList s).length := consolidate_length_le _
    _ = (rawWords s).length := List.length_map ..
    _ ≤ s.raw.length := List.length_take_le' ..
    _ ≤ capOf s := hcap

/-- OUT holds the entry words of the stored list from 0 on. -/
theorem storeOut_out_stored {ps : List Pulse} (s : State) {j : Nat} {x : Pulse} (hx : ps[j]? = some x) :
    (storeOut ps s).out[j]? = some (entry x) := by
  obtain ⟨hj, -⟩ := List.getElem?_eq_some_iff.mp hx
  have hget := storeAt_get_stored (buf := s.out) (ps.map entry) (Nat.zero_le _) (by rwa [List.length_map])
  rwa [Nat.zero_add, List.getElem?_map, hx] at hget

/-- The OUT entries beyond the stored list stay. -/
theorem storeOut_out_other {ps : List Pulse} (s : State) {j : Nat} (hj : ps.length ≤ j) :
    (storeOut ps s).out[j]? = s.out[j]? :=
  storeAt_get_other _ (Nat.zero_le _) (.inr (by rwa [List.length_map, Nat.zero_add]))

/-- OUTLIST is the stored list, when its length and its durations fit their fields. -/
theorem outList_storeOut {ps : List Pulse} (s : State) (hlen : ps.length < 2 ^ 16) (hdur : ∀ p ∈ ps, p.dur < 2 ^ 31) :
    outList (storeOut ps s) = ps := by
  rw [outList, outWords_storeOut hlen, map_pulseOf_entry hdur]

/-- With HANDED = 0 and a result that fits, CONSOLIDATE stores it in OUT and hands it off (R195). -/
theorem exec_consolidate_of_le {s : State} (hs : s.handed = false)
    (h : (consolidate (rawList s)).length ≤ capOf s) :
    exec .consolidate s = .next (succeed (setHanded true (storeOut (consolidate (rawList s)) s))) := by
  simp [exec, execConsolidate, hs, Nat.not_lt.mpr h]

/-- Settles O22: HANDED decides between the two answers. The result fits OUT because it is no longer than RAWLIST, and its
entry words read back as its pulses because no duration exceeds the total of RAWLIST. -/
theorem consolidateHandsOffOrReports : Obligations.ConsolidateHandsOffOrReports := by
  unfold Obligations.ConsolidateHandsOffOrReports
  refine ⟨decodeWord_encode .consolidate, fun s hcounts hrepeats => ⟨fun hs => ?handsOff, exec_consolidate_of_handed⟩⟩
  case handsOff =>
    have hcap := consolidate_rawList_length_le hcounts
    have hlen := lt_of_le_capOf hcap
    exact ⟨_, exec_consolidate_of_le hs hcap, rfl, Nat.mod_eq_of_lt hlen, fun _ _ => storeOut_out_stored s,
      outList_storeOut s hlen fun _ => dur_lt_of_mem_consolidate hrepeats, fun _ => storeOut_out_other s⟩

end Sys2Proof.Machine
end

section
/-! SUPPORT. The length of the repeat loop, the four answers of `build_transmission`, and the answers of
BUILD_TRANSMISSION and RELEASE (R210, R212 to R214, R225). -/

namespace Sys2Proof.Machine

/-- The loop of two or more repeats: the first, the middle ones, the last (R213). -/
theorem repeatsOf_add_two (o : Frame) (m : Nat) : repeatsOf o (m + 2) =
    encodeRepeat o true false ++ ((List.range m).flatMap fun _ => encodeRepeat o false false)
      ++ encodeRepeat o false true := by
  have hmiddle : ((List.range m).flatMap fun i => encodeRepeat o (i + 1 == 0) (i + 1 == m + 1))
      = (List.range m).flatMap fun _ => encodeRepeat o false false :=
    List.flatMap_congr fun i hi => by simp [beq_false_of_ne (List.mem_range.mp hi).ne]
  rw [← hmiddle, repeatsOf, List.range_succ, List.range_succ_eq_map]
  simp [List.flatMap_map]

/-- The repeats of a transmission have the raw length of R210. -/
theorem repeatsOf_length {o : Frame} {n : Nat} (hn : n ≠ 0) : (repeatsOf o n).length = txRawLen n := by
  match n, hn with
  | 1, _ => simp [repeatsOf, rawLen, txRawLen]
  | m + 2, _ =>
    have hmiddle : ((List.range m).flatMap fun _ => encodeRepeat o false false).length = 129 * m := by
      simp [List.length_flatMap, rawLen, Nat.mul_comm]
    rw [repeatsOf_add_two, List.length_append, List.length_append, hmiddle, encodeRepeat_length, encodeRepeat_length]
    simp [rawLen, txRawLen]

section
variable {cap : Nat} {cmd : Nibble} {rc : BitVec 16} {addr : Word} {n : BitVec 8}

/-- A code that is no command (R124, R212). -/
theorem buildTransmission_of_invalid (hv : validCmd cmd ≠ true) :
    buildTransmission cap cmd rc addr n = .error .invalidCommand := by
  simp [buildTransmission, hv]

/-- A legal command, no repeats (R212). -/
theorem buildTransmission_of_zero (hv : validCmd cmd = true) (hn : n.toNat = 0) :
    buildTransmission cap cmd rc addr n = .error .invalidRepeatCount := by
  simp [buildTransmission, hv, BitVec.toNat_eq, hn]

/-- A legal command, more repeats than CAP has room for (R212). -/
theorem buildTransmission_of_lt (hv : validCmd cmd = true) (hn : n.toNat ≠ 0) (hc : cap < txRawLen n.toNat) :
    buildTransmission cap cmd rc addr n = .error .capacityExceeded := by
  simp [buildTransmission, hv, BitVec.toNat_eq, hn, hc]

/-- A legal command, repeats that fit (R212). The last check never fires: the consolidated list is
no longer than the repeats (R196). -/
theorem buildTransmission_of_le (hv : validCmd cmd = true) (hn : n.toNat ≠ 0) (hc : txRawLen n.toNat ≤ cap) :
    buildTransmission cap cmd rc addr n =
      let o := obfuscate (buildFrame cmd rc addr)
      .ok (o, repeatsOf o n.toNat, consolidate (repeatsOf o n.toNat)) := by
  have hout (o : Frame) : (consolidate (repeatsOf o n.toNat)).length ≤ cap :=
    calc (consolidate (repeatsOf o n.toNat)).length ≤ (repeatsOf o n.toNat).length := consolidate_length_le _
      _ = txRawLen n.toNat := repeatsOf_length hn
      _ ≤ cap := hc
  simp [buildTransmission, hv, BitVec.toNat_eq, hn, Nat.not_lt.mpr hc, Nat.not_lt.mpr (hout _)]

end

/-- With HANDED = 0, BUILD_TRANSMISSION only reports the error of `build_transmission` (R214, R243). -/
theorem exec_buildTransmission_of_error {s : State} {e : ErrCode} (hs : s.handed = false)
    (h : buildTransmission (capOf s) s.cmd s.rc s.addr s.repeats = .error e) :
    exec .buildTransmission s = .next (raiseError e s) := by
  simp only [exec, execBuildTransmission, hs, h, Bool.false_eq_true, if_false]

/-- With HANDED = 0, BUILD_TRANSMISSION stores and hands off the transmission built (R214). -/
theorem exec_buildTransmission_of_ok {s : State} {o : Frame} {raw out : List Pulse} (hs : s.handed = false)
    (h : buildTransmission (capOf s) s.cmd s.rc s.addr s.repeats = .ok (o, raw, out)) :
    exec .buildTransmission s
      = .next (succeed (setHanded true (storeOut out (storeRaw 0 raw (putFrame o s))))) := by
  simp only [exec, execBuildTransmission, hs, h, Bool.false_eq_true, if_false]

/-- RAW holds the entry words of a list stored from 0 on. -/
theorem storeRaw_zero_raw_stored {ps : List Pulse} (s : State) {j : Nat} {x : Pulse} (hx : ps[j]? = some x) :
    (storeRaw 0 ps s).raw[j]? = some (entry x) := by
  obtain ⟨hj, -⟩ := List.getElem?_eq_some_iff.mp hx
  have hget := storeAt_get_stored (buf := s.raw) (ps.map entry) (Nat.zero_le _) (by rwa [List.length_map])
  rwa [Nat.zero_add, List.getElem?_map, hx] at hget

/-- The RAW entries beyond a list stored from 0 on stay. -/
theorem storeRaw_zero_raw_other {ps : List Pulse} (s : State) {j : Nat} (hj : ps.length ≤ j) :
    (storeRaw 0 ps s).raw[j]? = s.raw[j]? :=
  storeAt_get_other _ (Nat.zero_le _) (.inr (by rwa [List.length_map, Nat.zero_add]))

/-- Settles O24: HANDED, the command, REPEATS and the raw length decide between the five answers, in this order. What a
success leaves in the two buffers and counts is what `storeRaw` and `storeOut` store from entry 0 on. -/
theorem buildTransmissionBuildsOrReports : Obligations.BuildTransmissionBuildsOrReports := by
  unfold Obligations.BuildTransmissionBuildsOrReports
  refine ⟨decodeWord_encode .buildTransmission, fun s => ?_⟩
  intro n valid o raw
  have hvalid : validCmd s.cmd = true ↔ valid := validCmd_iff s.cmd
  have hraw (hn : n ≠ 0) : raw.length = txRawLen n := repeatsOf_length hn
  refine ⟨exec_buildTransmission_of_handed, fun hs hv => ?invalid, fun hs hv hn => ?zero,
    fun hs hv hn hcap => ?exceeded, fun hs hv hn hcap => ?built⟩
  case invalid => exact exec_buildTransmission_of_error hs (buildTransmission_of_invalid (mt hvalid.mp hv))
  case zero => exact exec_buildTransmission_of_error hs (buildTransmission_of_zero (hvalid.mpr hv) hn)
  case exceeded =>
    rw [hraw hn] at hcap
    exact exec_buildTransmission_of_error hs (buildTransmission_of_lt (hvalid.mpr hv) hn hcap)
  case built =>
    have hout : (consolidate raw).length ≤ capOf s := (consolidate_length_le raw).trans hcap
    have hbuilt := buildTransmission_of_le (rc := s.rc) (addr := s.addr) (hvalid.mpr hv) hn (hraw hn ▸ hcap)
    refine ⟨_, exec_buildTransmission_of_ok hs hbuilt, rfl, ?rawCount, fun _ _ => storeRaw_zero_raw_stored _,
      fun _ => storeRaw_zero_raw_other _, ?outCount, fun _ _ => storeOut_out_stored _, fun _ => storeOut_out_other _⟩
    case rawCount =>
      rw [succeed_rawCount, setHanded_rawCount, storeOut_rawCount, storeRaw_rawCount, Nat.zero_add]
      exact Nat.mod_eq_of_lt (lt_of_le_capOf hcap)
    case outCount => exact Nat.mod_eq_of_lt (lt_of_le_capOf hout)

/-- Settles O28: RELEASE is the success that clears HANDED. -/
theorem releaseEndsTheHandoff : Obligations.ReleaseEndsTheHandoff := by
  unfold Obligations.ReleaseEndsTheHandoff
  refine ⟨decodeWord_encode .release, fun s => ?_⟩
  rw [exec_release]
  rfl

end Sys2Proof.Machine
end

section
/-! SUPPORT. Which error a completion reports, and that an error changes nothing else (R243, R245). -/

namespace Sys2Proof

open Machine (Request)

/-- The request of an instruction's word: its OP value of R91, the flags of ENCODE_REPEAT, no reserved bit. -/
def Machine.requestOf : Instr → Request
  | .buildFrame => ⟨0x1, false, false, false⟩
  | .obfuscate => ⟨0x2, false, false, false⟩
  | .deobfuscate => ⟨0x3, false, false, false⟩
  | .clearRaw => ⟨0x4, false, false, false⟩
  | .encodeRepeat first last => ⟨0x5, first, last, false⟩
  | .consolidate => ⟨0x6, false, false, false⟩
  | .buildTransmission => ⟨0x7, false, false, false⟩
  | .release => ⟨0x8, false, false, false⟩

/-- No other request decodes to the instruction (R91, R93). -/
theorem eq_requestOf_of_decode {r : Request} {i : Instr} (h : decode r = .ok i) : r = Machine.requestOf i := by
  have hall : ∀ (op : Nibble) (first last rsvd : Bool),
      (decode ⟨op, first, last, rsvd⟩).toOption.all
        (fun j => decide ((⟨op, first, last, rsvd⟩ : Request) = Machine.requestOf j)) = true := by decide
  have hr := hall r.op r.first r.last r.rsvd
  rw [h] at hr
  exact of_decide_eq_true hr

namespace Machine

/-- The completion of a legal request performs its operation (R92). -/
theorem complete_of_decode {r : Request} {i : Instr} (h : decode r = .ok i) (s : State) :
    Machine.complete r s = exec i s := by
  simp [Machine.complete, h]

/-- An operation raises an error, or it succeeds with code 0 (R243, R244). -/
theorem exec_raises_or_succeeds {i : Instr} {s t : State} (h : exec i s = .next t) :
    (∃ e, t = raiseError e s) ∨ t.err = 0 := by
  cases i
  case buildFrame =>
    rcases execBuildFrame_cases h with ⟨-, rfl⟩ | ⟨-, rfl⟩
    · exact .inr rfl
    · exact .inl ⟨_, rfl⟩
  case encodeRepeat =>
    rcases execEncodeRepeat_cases h with ⟨-, rfl⟩ | ⟨-, rfl⟩
    · exact .inr rfl
    · exact .inl ⟨_, rfl⟩
  case consolidate =>
    rcases execConsolidate_cases h with ⟨-, rfl⟩ | ⟨-, -, rfl⟩ | ⟨-, -, rfl⟩
    · exact .inl ⟨_, rfl⟩
    · exact .inl ⟨_, rfl⟩
    · exact .inr rfl
  case buildTransmission =>
    rcases execBuildTransmission_cases h with ⟨-, rfl⟩ | ⟨e, -, -, rfl⟩ | ⟨o, raw, out, -, -, rfl⟩
    · exact .inl ⟨_, rfl⟩
    · exact .inl ⟨e, rfl⟩
    · exact .inr rfl
  all_goals cases h; exact .inr rfl

/-- The same of a completion: an illegal request raises IllegalOp (R93). -/
theorem complete_raises_or_succeeds {r : Request} {s t : State} (h : Machine.complete r s = .next t) :
    (∃ e, t = raiseError e s) ∨ t.err = 0 := by
  rcases complete_cases h with ⟨c, -, rfl⟩ | ⟨i, -, hx⟩
  · exact .inl ⟨_, rfl⟩
  · exact exec_raises_or_succeeds hx

/-- Settles O30: a completion with a code other than OK is `raiseError`, which writes ERR and ends the operation. -/
theorem errorChangesOnlyErr : Obligations.ErrorChangesOnlyErr := by
  unfold Obligations.ErrorChangesOnlyErr
  intro w s t h herr
  rcases complete_raises_or_succeeds h with ⟨e, rfl⟩ | hok
  · rfl
  · exact absurd hok herr

/-- The code each operation reports, its conditions in the order of R245. -/
def errOf (i : Instr) (s : State) : ErrCode :=
  match i with
  | .buildFrame => if ¬ validCmd s.cmd = true then .invalidCommand else .ok
  | .encodeRepeat first last =>
      if capOf s < s.rawCount.toNat + rawLen first last then .capacityExceeded else .ok
  | .consolidate => if s.handed then .outputLocked else .ok
  | .buildTransmission =>
      if s.handed then .outputLocked
      else if ¬ validCmd s.cmd = true then .invalidCommand
      else if s.repeats.toNat = 0 then .invalidRepeatCount
      else if capOf s < txRawLen s.repeats.toNat then .capacityExceeded
      else .ok
  | .obfuscate | .deobfuscate | .clearRaw | .release => .ok

/-- BUILD_TRANSMISSION answers with its code, the first of its four conditions deciding (R214, R245). -/
theorem exec_buildTransmission_err (s : State) :
    ∃ t, exec .buildTransmission s = .next t ∧ t.err = (errOf .buildTransmission s).code := by
  by_cases hs : s.handed = true
  · exact ⟨_, exec_buildTransmission_of_handed hs, by simp [errOf, hs]⟩
  rw [Bool.not_eq_true] at hs
  by_cases hv : validCmd s.cmd = true
  case neg =>
    exact ⟨_, exec_buildTransmission_of_error hs (buildTransmission_of_invalid hv), by simp [errOf, hs, hv]⟩
  by_cases hn : s.repeats.toNat = 0
  · exact ⟨_, exec_buildTransmission_of_error hs (buildTransmission_of_zero hv hn), by simp [errOf, hs, hv, hn]⟩
  by_cases hc : capOf s < txRawLen s.repeats.toNat
  · exact ⟨_, exec_buildTransmission_of_error hs (buildTransmission_of_lt hv hn hc),
      by simp [errOf, hs, hv, hn, hc]⟩
  · exact ⟨_, exec_buildTransmission_of_ok hs (buildTransmission_of_le hv hn (Nat.not_lt.mp hc)),
      by simp [errOf, hs, hv, hn, hc, ErrCode.code]⟩

/-- Every operation answers with its code. Counts in range are what keeps CONSOLIDATE from exceeding the
capacity (R196). -/
theorem exec_err (i : Instr) {s : State} (hcounts : CountsInRange s) :
    ∃ t, exec i s = .next t ∧ t.err = (errOf i s).code := by
  cases i
  case buildFrame =>
    simp only [errOf]
    split_ifs with hv
    · exact ⟨_, exec_buildFrame_of_valid hv, rfl⟩
    · exact ⟨_, exec_buildFrame_of_invalid hv, rfl⟩
  case encodeRepeat first last =>
    simp only [errOf, ← encodeRepeat_length s.frame]
    split_ifs with hc
    · exact ⟨_, exec_encodeRepeat_of_lt hc, rfl⟩
    · exact ⟨_, exec_encodeRepeat_of_le (Nat.not_lt.mp hc), rfl⟩
  case consolidate =>
    simp only [errOf]
    split_ifs with hs
    · exact ⟨_, exec_consolidate_of_handed hs, rfl⟩
    · rw [Bool.not_eq_true] at hs
      exact ⟨_, exec_consolidate_of_le hs (consolidate_rawList_length_le hcounts), rfl⟩
  case buildTransmission => exact exec_buildTransmission_err s
  case obfuscate => exact ⟨_, exec_obfuscate s, rfl⟩
  case deobfuscate => exact ⟨_, exec_deobfuscate s, rfl⟩
  case clearRaw => exact ⟨_, exec_clearRaw s, rfl⟩
  case release => exact ⟨_, exec_release s, rfl⟩

/-- The codes of the operations are the one list of R245, read by the OP value and the flags of the request. -/
theorem errOf_code_eq (i : Instr) (s : State) : (errOf i s).code =
    let op := (requestOf i).op
    if (op = 0x6 ∨ op = 0x7) ∧ s.handed = true then 5
    else if (op = 0x1 ∨ op = 0x7) ∧ ¬ (s.cmd = 0x1 ∨ s.cmd = 0x2 ∨ s.cmd = 0x4 ∨ s.cmd = 0x8) then 3
    else if op = 0x7 ∧ s.repeats = 0 then 1
    else if op = 0x7 ∧ s.capacity.toNat < txRawLen s.repeats.toNat then 2
    else if op = 0x5 ∧ s.capacity.toNat < s.rawCount.toNat + rawLen (requestOf i).first (requestOf i).last then 2
    else 0 := by
  simp only [← validCmd_iff]
  cases i <;> simp [errOf, requestOf, BitVec.toNat_eq, apply_ite ErrCode.code] <;> rfl

/-- Settles O31: an illegal request reports IllegalOp; a legal one is the request of its instruction, which reports the
code R245 lists for it. -/
theorem errorPriorityOrder : Obligations.ErrorPriorityOrder := by
  unfold Obligations.ErrorPriorityOrder
  intro w s hcounts op
  have hwf := wf_capture_eq_false_iff w
  rw [or_assoc] at hwf
  cases hr : (capture w).wf with
  | false => exact ⟨_, complete_of_not_wf hr s, rfl, (if_pos (hwf.mp hr)).symm⟩
  | true =>
    have hlegal := mt hwf.mpr (by simp [hr])
    obtain ⟨i, hi⟩ := (decode_isOk_iff_wf _).mpr hr
    obtain ⟨t, ht, herr⟩ := exec_err i hcounts
    obtain ⟨hidle, -⟩ := exec_leaves_idle ht
    refine ⟨t, (complete_of_decode hi s).trans ht, hidle, ?code⟩
    rw [if_neg hlegal, herr, errOf_code_eq, ← eq_requestOf_of_decode hi]
    rfl

end Machine
end Sys2Proof
end

section
/-! SUPPORT. What the registers read right after reset (R23, R270). -/

namespace Sys2Proof.Machine

/-- While no operation is in flight, every register reads what it holds (R66). -/
theorem readValue_of_idle {s : State} (h : s.pending = none) (r : Reg) : readValue r s = idleValue r s := by
  simp [readValue, busy, h]

/-- An OUT entry at or above OUT_COUNT reads as unspecified, whether BUSY is 0 or 1 (R36, R68). -/
theorem readValue_out_of_count_le {s : State} {j : Nat} (h : s.outCount.toNat ≤ j) : readValue (.out j) s = none := by
  rw [readValue, idleValue, entryAt_of_count_le h, ite_self]

/-- Reset leaves no operation in flight (R270). -/
@[simp] theorem reset_pending : State.reset.pending = none := rfl

/-- Settles O42: reset leaves the block idle, so each register reads the field it holds; both counts are 0, so no entry
is below its count. -/
theorem resetValues : Obligations.ResetValues := by
  unfold Obligations.ResetValues
  refine ⟨?zeros, ?capacity, reset_pending, fun j =>
    ⟨readValue_raw_of_count_le (Nat.zero_le j), readValue_out_of_count_le (Nat.zero_le j)⟩⟩
  case zeros =>
    intro r hr
    rw [readValue_of_idle reset_pending]
    rcases hr with rfl | rfl | rfl | rfl | rfl | rfl | rfl | rfl | rfl <;> rfl
  case capacity => exact readValue_of_idle reset_pending .capacity

end Sys2Proof.Machine
end

section
/-! SUPPORT. The bits a request is captured from, so that a legal word is the word of its instruction and the illegal words
are told by their bits; and the step that completes a request (R90, R93, R96). -/

namespace Sys2Proof

open Machine (Request)

/-- A field of a word is 0 exactly when no bit of it is 1. -/
theorem extractLsb'_ne_zero_iff (w : Word) (start len : Nat) :
    w.extractLsb' start len ≠ 0 ↔ ∃ k, start ≤ k ∧ k < start + len ∧ w.getLsbD k = true := by
  rw [ne_eq, BitVec.eq_of_getLsbD_eq_iff]
  simp only [BitVec.getLsbD_extractLsb', BitVec.ofNat_eq_ofNat, BitVec.getLsbD_zero]
  constructor
  · intro h
    push Not at h
    obtain ⟨i, hi, hbit⟩ := h
    exact ⟨start + i, by omega, by omega, by simpa [hi] using hbit⟩
  · rintro ⟨k, hk, hlt, hbit⟩ h
    have hz := h (k - start) (by omega)
    rw [Nat.add_sub_cancel' hk, hbit] at hz
    simp at hz
    omega

/-- A reserved bit of the word is 1: RSVD_SET, in the bits of R90. -/
theorem reserved_iff (w : Word) : (w.extractLsb' 4 4 ≠ 0 ∨ w.extractLsb' 10 22 ≠ 0) ↔
    ∃ k, ((4 ≤ k ∧ k ≤ 7) ∨ (10 ≤ k ∧ k ≤ 31)) ∧ w.getLsbD k = true := by
  rw [extractLsb'_ne_zero_iff, extractLsb'_ne_zero_iff]
  constructor
  · rintro (⟨k, h1, h2, hk⟩ | ⟨k, h1, h2, hk⟩)
    · exact ⟨k, .inl ⟨h1, by omega⟩, hk⟩
    · exact ⟨k, .inr ⟨h1, by omega⟩, hk⟩
  · rintro ⟨k, ⟨h1, h2⟩ | ⟨h1, h2⟩, hk⟩
    · exact .inl ⟨k, h1, by omega, hk⟩
    · exact .inr ⟨k, h1, by omega, hk⟩

/-- The captured RSVD_SET flag is set exactly by a reserved bit of the word (R38). -/
theorem capture_rsvd_iff (w : Word) : (capture w).rsvd = true ↔
    ∃ k, ((4 ≤ k ∧ k ≤ 7) ∨ (10 ≤ k ∧ k ≤ 31)) ∧ w.getLsbD k = true := by
  rw [← reserved_iff]
  simp [capture]

/-- The bits of a word that no reserved bit is set in are those of its captured fields. -/
theorem getLsbD_of_capture_rsvd {w : Word} (h : (capture w).rsvd = false) {k : Nat} (hk : k < 32) :
    w.getLsbD k = if k < 4 then (capture w).op.getLsbD k
      else if k = 8 then (capture w).first else if k = 9 then (capture w).last else false := by
  split_ifs with h4 h8 h9
  · simp [capture, h4]
  · rw [h8]
    rfl
  · rw [h9]
    rfl
  · rw [Bool.eq_false_iff] at h ⊢
    exact fun hbit => h ((capture_rsvd_iff w).mpr ⟨k, by omega, hbit⟩)

/-- A word with no reserved bit set is determined by its captured request. -/
theorem eq_of_capture_eq {w v : Word} (h : capture w = capture v) (hv : (capture v).rsvd = false) : w = v := by
  refine BitVec.eq_of_getLsbD_eq fun k hk => ?_
  rw [getLsbD_of_capture_rsvd (h ▸ hv) hk, getLsbD_of_capture_rsvd hv hk, h]

/-- The word of an instruction is captured as its request. -/
theorem capture_encode (i : Instr) : capture (encode i) = Machine.requestOf i :=
  eq_requestOf_of_decode (decodeWord_encode i)

theorem requestOf_rsvd (i : Instr) : (Machine.requestOf i).rsvd = false := by
  cases i <;> rfl

/-- Settles O2: a word that decodes to `i` has the request of `i`, which has no reserved bit, so it is the word of `i`. -/
theorem wordDecodesIffItIsTheEncoding : Obligations.WordDecodesIffItIsTheEncoding := by
  unfold Obligations.WordDecodesIffItIsTheEncoding
  refine fun w i => ⟨fun h => ?word, fun h => h ▸ decodeWord_encode i⟩
  case word =>
    have hreq : capture w = Machine.requestOf i := eq_requestOf_of_decode h
    rw [← capture_encode] at hreq
    exact (eq_of_capture_eq hreq (by rw [capture_encode, requestOf_rsvd])).symm

/-- Settles O3: a word decodes to nothing exactly when its request is not legal. -/
theorem illegalWordsAreExactly : Obligations.IllegalWordsAreExactly := by
  unfold Obligations.IllegalWordsAreExactly
  intro w
  have hnone : (∀ i, decodeWord w ≠ .ok i) ↔ (capture w).wf = false := by
    rw [← Bool.not_eq_true, ← decode_isOk_iff_wf, not_exists]
    rfl
  rw [hnone, wf_capture_eq_false_iff, ← reserved_iff, or_assoc (a := w.extractLsb' 4 4 ≠ 0)]

namespace Machine

/-- Settles O4: the engine completes the ready request, which performs the operation it decodes to. -/
theorem stepRunsTheDecodedInstruction : Obligations.StepRunsTheDecodedInstruction := by
  unfold Obligations.StepRunsTheDecodedInstruction
  refine ⟨fun s r i hp hw hi => ?ready, fun s nbits w i h => ?fetched⟩
  case ready => rw [step_of_ready hp hw, complete_of_decode hi]
  case fetched =>
    have hd : decode (capture (tableWord nbits w)) = .ok i := by
      rw [decodeTableWord, decodeWord] at h
      split at h <;> simp_all
    exact ⟨_, hd, (step_of_ready rfl rfl).trans (complete_of_decode hd _)⟩

end Machine
end Sys2Proof
end

section
/-! SUPPORT. The laws of consolidation (R190, R191, R194). The forward pass is a fold from the right as well, one pulse at a
time into the front of what is consolidated; the laws follow by induction on the list. -/

namespace Sys2Proof.Machine

/-- A list alternates exactly when its levels do (R194). -/
theorem alternates_iff_levels (ps : List Pulse) : Alternates ps ↔ (ps.map Pulse.level).IsChain (· ≠ ·) := by
  induction ps with
  | nil => simp [Alternates]
  | cons p ps ih =>
    cases ps with
    | nil => simp [Alternates]
    | cons q rest => simp [Alternates, ih]

/-- One pulse put in front of a consolidated list: added into the first one of the same level, or a new one. -/
def mergeFront (p : Pulse) (ps : List Pulse) : List Pulse :=
  match ps with
  | [] => [p]
  | q :: rest => if p.level = q.level then { p with dur := p.dur + q.dur } :: rest else p :: q :: rest

@[simp] theorem mergeFront_nil (p : Pulse) : mergeFront p [] = [p] := rfl

theorem mergeFront_cons_of_eq {p q : Pulse} (h : p.level = q.level) (rest : List Pulse) :
    mergeFront p (q :: rest) = { p with dur := p.dur + q.dur } :: rest := if_pos h

theorem mergeFront_cons_of_ne {p q : Pulse} (h : p.level ≠ q.level) (rest : List Pulse) :
    mergeFront p (q :: rest) = p :: q :: rest := if_neg h

/-- The list is never empty after a pulse, and it starts with the level of the pulse. -/
@[simp] theorem mergeFront_head?_level (p : Pulse) (ps : List Pulse) :
    (mergeFront p ps).head?.map Pulse.level = some p.level := by
  cases ps with
  | nil => rfl
  | cons q rest =>
    rw [mergeFront]
    split <;> rfl

/-- In front of another level, a pulse stays as it is. -/
theorem mergeFront_of_head?_ne {p : Pulse} {ps : List Pulse} (h : ps.head?.map Pulse.level ≠ some p.level) :
    mergeFront p ps = p :: ps := by
  cases ps with
  | nil => rfl
  | cons q rest => exact mergeFront_cons_of_ne (by simpa [eq_comm] using h) rest

/-- Two pulses of the same level are put in front as one. -/
theorem mergeFront_mergeFront_of_eq {p q : Pulse} (h : p.level = q.level) (ps : List Pulse) :
    mergeFront p (mergeFront q ps) = mergeFront { p with dur := p.dur + q.dur } ps := by
  cases ps with
  | nil => exact mergeFront_cons_of_eq h []
  | cons r rest =>
    by_cases hr : q.level = r.level
    · simp [mergeFront_cons_of_eq, hr, h, Nat.add_assoc]
    · simp [mergeFront_cons_of_eq, mergeFront_cons_of_ne, hr, h]

/-- The forward pass changes only the pulse emitted last (R190). -/
theorem mergePulse_append {out : List Pulse} (h : out ≠ []) (p : Pulse) (before : List Pulse) :
    mergePulse (out ++ before) p = mergePulse out p ++ before := by
  cases out with
  | nil => exact absurd rfl h
  | cons q rest => simp [mergePulse, apply_ite (· ++ before)]

theorem mergePulse_ne_nil (out : List Pulse) (p : Pulse) : mergePulse out p ≠ [] := by
  cases out with
  | nil => simp [mergePulse]
  | cons q rest =>
    rw [mergePulse]
    split <;> simp

theorem foldl_mergePulse_append {out : List Pulse} (h : out ≠ []) (raw before : List Pulse) :
    raw.foldl mergePulse (out ++ before) = raw.foldl mergePulse out ++ before := by
  induction raw generalizing out with
  | nil => rfl
  | cons p raw ih => rw [List.foldl_cons, mergePulse_append h, ih (mergePulse_ne_nil out p), List.foldl_cons]

@[simp] theorem consolidate_nil : consolidate [] = [] := rfl

/-- Consolidation takes the pulses one by one from the front as well as from the back (R190). -/
theorem consolidate_cons (p : Pulse) (raw : List Pulse) : consolidate (p :: raw) = mergeFront p (consolidate raw) := by
  induction raw generalizing p with
  | nil => rfl
  | cons q raw ih =>
    by_cases hl : p.level = q.level
    · have hstep : consolidate (p :: q :: raw) = consolidate ({ p with dur := p.dur + q.dur } :: raw) := by
        simp [consolidate, mergePulse, hl]
      rw [hstep, ih, ih, mergeFront_mergeFront_of_eq hl]
    · have hstep : consolidate (p :: q :: raw) = p :: consolidate (q :: raw) := by
        have := foldl_mergePulse_append (List.cons_ne_nil q []) raw [p]
        simp_all [consolidate, mergePulse]
      rw [hstep, mergeFront_of_head?_ne]
      rw [ih, mergeFront_head?_level]
      simpa [eq_comm] using hl

@[simp] theorem consolidate_eq_nil_iff (raw : List Pulse) : consolidate raw = [] ↔ raw = [] := by
  cases raw with
  | nil => simp
  | cons p raw =>
    have := mergeFront_head?_level p (consolidate raw)
    rw [consolidate_cons]
    constructor <;> intro h <;> simp_all

/-- The first level stays (R191). -/
@[simp] theorem consolidate_head?_level (raw : List Pulse) :
    (consolidate raw).head?.map Pulse.level = raw.head?.map Pulse.level := by
  cases raw with
  | nil => rfl
  | cons p raw => rw [consolidate_cons, mergeFront_head?_level, List.head?_cons, Option.map_some]

theorem mergeFront_alternates {p : Pulse} {ps : List Pulse} (h : Alternates ps) : Alternates (mergeFront p ps) := by
  rw [alternates_iff_levels] at h ⊢
  cases ps with
  | nil => simp
  | cons q rest =>
    by_cases hl : p.level = q.level
    · rw [mergeFront_cons_of_eq hl]
      simpa [hl] using h
    · rw [mergeFront_cons_of_ne hl]
      simpa [hl] using h

/-- The result alternates in level (R194). -/
theorem consolidate_alternates (raw : List Pulse) : Alternates (consolidate raw) := by
  induction raw with
  | nil => trivial
  | cons p raw ih => exact consolidate_cons p raw ▸ mergeFront_alternates ih

/-- A list that alternates is left alone (R191). -/
theorem consolidate_of_alternates {raw : List Pulse} (h : Alternates raw) : consolidate raw = raw := by
  induction raw with
  | nil => rfl
  | cons p raw ih =>
    cases raw with
    | nil => rfl
    | cons q rest =>
      obtain ⟨hl, h⟩ := h
      rw [consolidate_cons, ih h, mergeFront_cons_of_ne hl]

theorem mergeFront_getLast?_level {p : Pulse} {ps : List Pulse} (h : ps ≠ []) :
    (mergeFront p ps).getLast?.map Pulse.level = ps.getLast?.map Pulse.level := by
  cases ps with
  | nil => exact absurd rfl h
  | cons q rest =>
    by_cases hl : p.level = q.level
    · rw [mergeFront_cons_of_eq hl]
      cases rest <;> simp [hl]
    · rw [mergeFront_cons_of_ne hl, List.getLast?_cons_cons]

/-- The last level stays (R191). -/
@[simp] theorem consolidate_getLast?_level (raw : List Pulse) :
    (consolidate raw).getLast?.map Pulse.level = raw.getLast?.map Pulse.level := by
  induction raw with
  | nil => rfl
  | cons p raw ih =>
    cases raw with
    | nil => rfl
    | cons q rest => rw [consolidate_cons, mergeFront_getLast?_level (by simp), ih, List.getLast?_cons_cons]

/-- Consolidating a concatenation: the first part may be consolidated beforehand. -/
theorem consolidate_append (a b : List Pulse) : consolidate (a ++ b) = a.foldr mergeFront (consolidate b) := by
  induction a with
  | nil => rfl
  | cons p a ih => rw [List.cons_append, consolidate_cons, ih, List.foldr_cons]

theorem foldr_mergeFront_mergeFront (p : Pulse) (ps c : List Pulse) :
    (mergeFront p ps).foldr mergeFront c = mergeFront p (ps.foldr mergeFront c) := by
  cases ps with
  | nil => rfl
  | cons q rest =>
    by_cases hl : p.level = q.level
    · rw [mergeFront_cons_of_eq hl, List.foldr_cons, List.foldr_cons, mergeFront_mergeFront_of_eq hl]
    · rw [mergeFront_cons_of_ne hl, List.foldr_cons]

theorem foldr_mergeFront_consolidate (a c : List Pulse) :
    (consolidate a).foldr mergeFront c = a.foldr mergeFront c := by
  induction a with
  | nil => rfl
  | cons p a ih => rw [consolidate_cons, foldr_mergeFront_mergeFront, ih, List.foldr_cons]

/-- Both parts of a concatenation may be consolidated beforehand (R191). -/
theorem consolidate_append_consolidate (a b : List Pulse) :
    consolidate (consolidate a ++ consolidate b) = consolidate (a ++ b) := by
  rw [consolidate_append, foldr_mergeFront_consolidate, consolidate_append,
    consolidate_of_alternates (consolidate_alternates b)]

/-- Two neighbours of equal level count as one pulse. -/
theorem consolidate_append_merged {p q : Pulse} (h : p.level = q.level) (xs ys : List Pulse) :
    consolidate (xs ++ p :: q :: ys) = consolidate (xs ++ { p with dur := p.dur + q.dur } :: ys) := by
  rw [consolidate_append, consolidate_cons, consolidate_cons, mergeFront_mergeFront_of_eq h, ← consolidate_cons,
    ← consolidate_append]

/-- The seam of two alternating lists, when the levels there differ. -/
theorem alternates_append {p q : Pulse} {xs ys : List Pulse} (ha : Alternates (xs ++ [p])) (hb : Alternates (q :: ys))
    (h : p.level ≠ q.level) : Alternates (xs ++ p :: q :: ys) := by
  rw [alternates_iff_levels] at *
  simp only [List.map_append, List.map_cons, List.map_nil] at *
  exact List.isChain_split.mpr ⟨ha, List.isChain_cons_cons.mpr ⟨h, hb⟩⟩

/-- The seam of two alternating lists whose levels there are equal, merged into one pulse. -/
theorem alternates_append_merged {p q : Pulse} {xs ys : List Pulse} (ha : Alternates (xs ++ [p]))
    (hb : Alternates (q :: ys)) (h : p.level = q.level) :
    Alternates (xs ++ { p with dur := p.dur + q.dur } :: ys) := by
  rw [alternates_iff_levels] at *
  simp only [List.map_append, List.map_cons, List.map_nil] at *
  exact List.isChain_split.mpr ⟨ha, h ▸ hb⟩

/-- The seam law (R191): the consolidation of a concatenation is that of its parts, with the two pulses at the seam merged
when their levels are equal. -/
theorem consolidate_append_seam {a b xs ys : List Pulse} {p q : Pulse} (ha : consolidate a = xs ++ [p])
    (hb : consolidate b = q :: ys) : consolidate (a ++ b) =
      if p.level = q.level then xs ++ { level := p.level, dur := p.dur + q.dur } :: ys
      else consolidate a ++ consolidate b := by
  have halt := ha ▸ consolidate_alternates a
  have hblt := hb ▸ consolidate_alternates b
  rw [← consolidate_append_consolidate, ha, hb, List.append_assoc, List.singleton_append]
  split_ifs with hl
  · rw [consolidate_append_merged hl, consolidate_of_alternates (alternates_append_merged halt hblt hl)]
  · rw [consolidate_of_alternates (alternates_append halt hblt hl)]

@[simp] theorem equalNeighbours_nil : equalNeighbours [] = 0 := rfl

@[simp] theorem equalNeighbours_singleton (p : Pulse) : equalNeighbours [p] = 0 := rfl

@[simp] theorem equalNeighbours_cons_cons (p q : Pulse) (ps : List Pulse) :
    equalNeighbours (p :: q :: ps) = equalNeighbours (q :: ps) + if p.level = q.level then 1 else 0 := by
  by_cases h : p.level = q.level <;> simp [equalNeighbours, h]

theorem mergeFront_length {p q : Pulse} {ps : List Pulse} (h : ps.head?.map Pulse.level = some q.level) :
    (mergeFront p ps).length + (if p.level = q.level then 1 else 0) = ps.length + 1 := by
  cases ps with
  | nil => simp at h
  | cons r rest =>
    have hr : r.level = q.level := by simpa using h
    rw [mergeFront, hr]
    split_ifs <;> simp

/-- The result is shorter by the number of equal neighbours (R191). -/
theorem consolidate_length_add (raw : List Pulse) :
    (consolidate raw).length + equalNeighbours raw = raw.length := by
  induction raw with
  | nil => rfl
  | cons p raw ih =>
    cases raw with
    | nil => rfl
    | cons q rest =>
      have hstep := mergeFront_length (p := p) (q := q) (consolidate_head?_level (q :: rest))
      rw [consolidate_cons, equalNeighbours_cons_cons, List.length_cons, ← ih]
      omega

/-- Settles O21: each law of R191 and the seam law. -/
theorem consolidateLaws : Obligations.ConsolidateLaws := by
  unfold Obligations.ConsolidateLaws
  exact ⟨fun raw => ⟨consolidate_alternates raw, totalDur_consolidate raw, consolidate_length_le raw,
      consolidate_eq_nil_iff raw, consolidate_head?_level raw, consolidate_getLast?_level raw,
      consolidate_of_alternates (consolidate_alternates raw), consolidate_of_alternates, consolidate_length_add raw⟩,
    fun _ _ _ _ _ _ => consolidate_append_seam⟩

end Sys2Proof.Machine
end

section
/-! SUPPORT. What a step can do to the two buffers, said once, and the invariants of the buffers that follow from it (R41,
R170, R194). -/

namespace Sys2Proof.Machine

/-- The two buffers, their counts and CAPACITY are the same. -/
structure SameBuffers (s t : State) : Prop where
  raw : t.raw = s.raw
  rawCount : t.rawCount = s.rawCount
  out : t.out = s.out
  outCount : t.outCount = s.outCount
  capacity : t.capacity = s.capacity

theorem SameResults.sameBuffers {s t : State} (h : SameResults s t) : SameBuffers s t :=
  ⟨h.raw, h.rawCount, h.out, h.outCount, h.capacity⟩

theorem raiseError_sameBuffers (e : ErrCode) (s : State) : SameBuffers s (raiseError e s) := ⟨rfl, rfl, rfl, rfl, rfl⟩

/-- The end of a successful operation does not touch the buffers; nor do FRAME and HANDED. -/
theorem succeed_sameBuffers (s : State) : SameBuffers s (succeed s) := ⟨rfl, rfl, rfl, rfl, rfl⟩

theorem succeed_putFrame_sameBuffers (f : Frame) (s : State) : SameBuffers s (succeed (putFrame f s)) :=
  ⟨rfl, rfl, rfl, rfl, rfl⟩

theorem succeed_setHanded_sameBuffers (b : Bool) (s : State) : SameBuffers s (succeed (setHanded b s)) :=
  ⟨rfl, rfl, rfl, rfl, rfl⟩

section
variable {s t : State}

theorem SameBuffers.countsInRange (h : SameBuffers s t) (hs : CountsInRange s) : CountsInRange t := by
  rwa [CountsInRange, capOf, h.raw, h.rawCount, h.out, h.outCount, h.capacity]

theorem SameBuffers.rawWords_eq (h : SameBuffers s t) : rawWords t = rawWords s := by
  rw [rawWords, h.raw, h.rawCount, rawWords]

theorem SameBuffers.outList_eq (h : SameBuffers s t) : outList t = outList s := by
  rw [outList, outWords, h.out, h.outCount, outList, outWords]

theorem SameBuffers.wholeRepeats (h : SameBuffers s t) (hs : WholeRepeats s) : WholeRepeats t := by
  rwa [WholeRepeats, h.rawWords_eq]

end

/-- Everything a step that is no reset can do to the buffers: it leaves them, or it is the success of one of the four
operations that write them (R94). -/
inductive BufferStep (s t : State) : Prop where
  | kept (h : SameBuffers s t)
  | rawEmptied (h : SameBuffers (emptyRaw s) t)
  | repeatStored (first last : Bool) (hfits : s.rawCount.toNat + (encodeRepeat s.frame first last).length ≤ capOf s)
      (h : SameBuffers (storeRaw s.rawCount.toNat (encodeRepeat s.frame first last) s) t)
  | consolidated (hs : s.handed = false) (hfits : (consolidate (rawList s)).length ≤ capOf s)
      (h : SameBuffers (storeOut (consolidate (rawList s)) s) t)
  | transmissionStored (o : Frame) (n : Nat) (hs : s.handed = false) (hfits : (repeatsOf o n).length ≤ capOf s)
      (h : SameBuffers (storeOut (consolidate (repeatsOf o n)) (storeRaw 0 (repeatsOf o n) s)) t)

theorem exec_bufferStep {i : Instr} {s t : State} (h : exec i s = .next t) : BufferStep s t := by
  cases i
  case buildFrame =>
    rcases execBuildFrame_cases h with ⟨-, rfl⟩ | ⟨-, rfl⟩
    · exact .kept (succeed_putFrame_sameBuffers ..)
    · exact .kept (raiseError_sameBuffers ..)
  case obfuscate => cases h; exact .kept (succeed_putFrame_sameBuffers ..)
  case deobfuscate => cases h; exact .kept (succeed_putFrame_sameBuffers ..)
  case clearRaw => cases h; exact .rawEmptied (succeed_sameBuffers _)
  case encodeRepeat first last =>
    rcases execEncodeRepeat_cases h with ⟨hfits, rfl⟩ | ⟨-, rfl⟩
    · exact .repeatStored first last hfits (succeed_sameBuffers _)
    · exact .kept (raiseError_sameBuffers ..)
  case consolidate =>
    rcases execConsolidate_cases h with ⟨-, rfl⟩ | ⟨-, -, rfl⟩ | ⟨hs, hfits, rfl⟩
    · exact .kept (raiseError_sameBuffers ..)
    · exact .kept (raiseError_sameBuffers ..)
    · exact .consolidated hs hfits (succeed_setHanded_sameBuffers ..)
  case buildTransmission =>
    rcases execBuildTransmission_cases h with ⟨-, rfl⟩ | ⟨e, -, -, rfl⟩ | ⟨o, raw, out, hs, hok, rfl⟩
    · exact .kept (raiseError_sameBuffers ..)
    · exact .kept (raiseError_sameBuffers ..)
    · obtain ⟨-, hn, hfits, -, rfl, rfl, -⟩ := buildTransmission_ok hok
      rw [← repeatsOf_length (o := o) (by simpa [BitVec.toNat_eq] using hn)] at hfits
      exact .transmissionStored o s.repeats.toNat hs hfits ⟨rfl, rfl, rfl, rfl, rfl⟩
  case release => cases h; exact .kept (succeed_setHanded_sameBuffers ..)

theorem complete_bufferStep {r : Request} {s t : State} (h : Machine.complete r s = .next t) : BufferStep s t := by
  rcases complete_cases h with ⟨c, -, rfl⟩ | ⟨i, -, hx⟩
  · exact .kept (raiseError_sameBuffers ..)
  · exact exec_bufferStep hx

/-- Everything a step can do to the buffers. -/
theorem step_bufferStep {s t : State} (h : step s = .next t) :
    BufferStep s t ∨ ∃ u, t = resetBlock u ∧ u.capacity = s.capacity := by
  rcases step_results h with ⟨r, -, -, hc⟩ | hsame | ⟨-, -, hreset⟩
  · exact .inl (complete_bufferStep hc)
  · exact .inl (.kept hsame.sameBuffers)
  · exact .inr hreset

section
variable {s t : State}

theorem BufferStep.capacity (h : BufferStep s t) : t.capacity = s.capacity := by
  cases h with
  | kept h | rawEmptied h | repeatStored _ _ _ h | consolidated _ _ h | transmissionStored _ _ _ _ h =>
    exact h.capacity

/-- Every operation checks that what it stores fits (R170, R196, R212). -/
theorem BufferStep.countsInRange (h : BufferStep s t) (hs : CountsInRange s) : CountsInRange t := by
  cases h with
  | kept h => exact h.countsInRange hs
  | rawEmptied h => exact h.countsInRange (emptyRaw_countsInRange hs)
  | repeatStored first last hfits h => exact h.countsInRange (storeRaw_countsInRange hs le_rfl hfits)
  | consolidated _ hfits h => exact h.countsInRange (storeOut_countsInRange hs hfits)
  | transmissionStored o n _ hfits h =>
    have hraw : CountsInRange (storeRaw 0 (repeatsOf o n) s) :=
      storeRaw_countsInRange hs (Nat.zero_le _) (by rwa [Nat.zero_add])
    exact h.countsInRange (storeOut_countsInRange hraw ((consolidate_length_le _).trans hfits))

/-- The pulses of a sequence of repeats, each given by its frame and its two flags, as in `WholeRepeats` (R170). -/
abbrev pulsesOf (rs : List (Frame × Bool × Bool)) : List Pulse := rs.flatMap fun r => encodeRepeat r.1 r.2.1 r.2.2

/-- The frame and the flags of each repeat of a transmission (R213). -/
theorem repeatsOf_eq_pulsesOf (o : Frame) (n : Nat) :
    repeatsOf o n = pulsesOf ((List.range n).map fun i => (o, i == 0, i == n - 1)) := by
  rw [pulsesOf, List.flatMap_map]
  rfl

/-- RAW only ever gets whole repeats: appended, or in place of what it held (R170, R214). -/
theorem BufferStep.wholeRepeats (h : BufferStep s t) (hs : WholeRepeats s) : WholeRepeats t := by
  cases h with
  | kept h => exact h.wholeRepeats hs
  | rawEmptied h => exact h.wholeRepeats ⟨[], rfl⟩
  | repeatStored first last hfits h =>
    obtain ⟨rs, hrs⟩ := hs
    refine h.wholeRepeats ⟨rs ++ [(s.frame, first, last)], ?_⟩
    rw [rawWords_storeRaw (lt_of_le_capOf hfits), hrs]
    simp
  | consolidated _ _ h => exact h.wholeRepeats hs
  | transmissionStored o n _ hfits h =>
    have hraw := rawWords_storeRaw_zero (s := s) (lt_of_le_capOf hfits)
    rw [repeatsOf_eq_pulsesOf] at hraw h
    exact h.wholeRepeats ⟨_, hraw⟩

/-- Entry words keep the levels of the stored list, whatever its durations. -/
theorem outList_storeOut_levels {ps : List Pulse} (s : State) (h : ps.length < 2 ^ 16) :
    (outList (storeOut ps s)).map Pulse.level = ps.map Pulse.level := by
  simp [outList, outWords_storeOut h]

/-- OUT only ever gets the result of a consolidation, which alternates (R194). -/
theorem outList_storeOut_alternates (raw : List Pulse) (s : State) (h : (consolidate raw).length < 2 ^ 16) :
    Alternates (outList (storeOut (consolidate raw) s)) := by
  rw [alternates_iff_levels, outList_storeOut_levels s h, ← alternates_iff_levels]
  exact consolidate_alternates raw

theorem BufferStep.outAlternates (h : BufferStep s t) (hs : OutAlternates s) : OutAlternates t := by
  rw [OutAlternates] at *
  cases h with
  | kept h | rawEmptied h | repeatStored _ _ _ h => rwa [h.outList_eq]
  | consolidated _ hfits h =>
    rw [h.outList_eq]
    exact outList_storeOut_alternates _ _ (lt_of_le_capOf hfits)
  | transmissionStored o n _ hfits h =>
    rw [h.outList_eq]
    exact outList_storeOut_alternates _ _ (lt_of_le_capOf ((consolidate_length_le _).trans hfits))

/-- The two operations that write OUT do so only with HANDED = 0 (R195, R214). -/
theorem BufferStep.out_of_handed (h : BufferStep s t) (hs : s.handed = true) :
    t.out = s.out ∧ t.outCount = s.outCount := by
  cases h with
  | kept h | rawEmptied h | repeatStored _ _ _ h => exact ⟨h.out, h.outCount⟩
  | consolidated hf => simp [hs] at hf
  | transmissionStored _ _ hf => simp [hs] at hf

end

/-- Settles O45: each store checks the capacity, and a reset empties both buffers. -/
theorem stepKeepsCountsInRange : Obligations.StepKeepsCountsInRange := by
  unfold Obligations.StepKeepsCountsInRange
  intro s t h hbuild hs
  rcases step_bufferStep h with hb | ⟨u, rfl, hcap⟩
  · exact ⟨by rwa [LegalBuild, capOf, hb.capacity], hb.countsInRange hs, hb.capacity⟩
  · have hzero : CountsInRange (resetBlock u) := ⟨Nat.zero_le _, Nat.zero_le _, Nat.zero_le _, Nat.zero_le _⟩
    exact ⟨by rwa [LegalBuild, capOf, resetBlock_capacity, hcap], hzero, hcap⟩

/-- Settles O46: RAW gets whole repeats, and a reset empties it. -/
theorem stepKeepsWholeRepeats : Obligations.StepKeepsWholeRepeats := by
  unfold Obligations.StepKeepsWholeRepeats
  intro s t h hs
  rcases step_bufferStep h with hb | ⟨u, rfl, -⟩
  · exact hb.wholeRepeats hs
  · exact ⟨[], rfl⟩

/-- Settles O47: OUT gets consolidated lists, and a reset empties it. -/
theorem stepKeepsOutAlternating : Obligations.StepKeepsOutAlternating := by
  unfold Obligations.StepKeepsOutAlternating
  intro s t h hs
  rcases step_bufferStep h with hb | ⟨u, rfl, -⟩
  · exact hb.outAlternates hs
  · exact trivial

/-- Settles O50: with HANDED = 1 no completion writes OUT, and of the completions only that of a RELEASE ends the
handoff. -/
theorem handedOffOutputIsImmutable : Obligations.HandedOffOutputIsImmutable := by
  unfold Obligations.HandedOffOutputIsImmutable
  refine fun s t h hs => ⟨fun ht => ?kept, fun ht => ?ended⟩
  case kept =>
    rcases step_bufferStep h with hb | ⟨u, rfl, -⟩
    · exact hb.out_of_handed hs
    · cases ht
  case ended =>
    have hne : t.handed ≠ s.handed := by simp [hs, ht]
    rcases step_handed_changed h hne with ⟨hi, hq, -⟩ | ⟨r, i, hp, hw, hd, hx⟩
    · exact .inl ⟨hi, hq⟩
    · obtain ⟨-, ⟨hset, -⟩ | ⟨-, rfl⟩⟩ := exec_handed_changed hx hne
      · simp [ht] at hset
      · exact .inr ⟨r, hp, hw, hd, (exec_bufferStep hx).out_of_handed hs⟩

end Sys2Proof.Machine
end

section
/-! SUPPORT. What consolidation makes of repeats (R163 to R166, R192, R198): every pulse of a consolidated sequence of
repeats is one of eleven plain ones or the gap, alone or with the payload's last half. The bounds of R198 and the number of
gaps both follow by counting. -/

namespace Sys2Proof.Machine

/-- Half a symbol of the payload (R161). -/
abbrev half (b : Bool) : Pulse := { level := b, dur := 604 }

/-- The pulses of consolidated repeats besides the gaps: halves of the payload alone and in pairs, framing pulses, and the
first pulse of a repeat after a payload that ends high. -/
def plainPulses : List Pulse :=
  [half true, half false, high 1208, low 1208, high 2416, low 2416, high 4550, high 9415, low 89565, high 3020, high 10019]

/-- What consolidation makes of the gap after a payload whose last bit is `b`: a low last half is added to it. -/
def gapPulse (b : Bool) : Pulse := low (if b then 30415 else 31019)

/-- The last bit of the payload is bit 0 of byte 6 (R162). -/
theorem payloadBits_eq_append (o : Frame) : ∃ bs, payloadBits o = bs ++ [o.b6.getLsbD 0] :=
  List.getLast?_eq_some_iff.mp rfl

/-- A consolidated sequence that is empty or starts with the first pulse of a repeat. -/
def StartsRepeat (c : List Pulse) : Prop := ∀ q, c.head? = some q → q = high 2416 ∨ q = high 9415

theorem startsRepeat_cases {c : List Pulse} (h : StartsRepeat c) :
    c = [] ∨ ∃ d rest, (d = 2416 ∨ d = 9415) ∧ c = high d :: rest := by
  cases c with
  | nil => exact .inl rfl
  | cons q rest =>
    rcases h q rfl with rfl | rfl
    · exact .inr ⟨_, _, .inl rfl, rfl⟩
    · exact .inr ⟨_, _, .inr rfl, rfl⟩

/-- The first half of a bit never merges with the second. -/
theorem consolidate_manchesterBit_append (b : Bool) (rest : List Pulse) :
    consolidate (manchesterBit b ++ rest) = half (!b) :: mergeFront (half b) (consolidate rest) := by
  rw [manchesterBit_eq, consolidate_append, List.foldr_cons, List.foldr_cons, List.foldr_nil,
    mergeFront_of_head?_ne (by simp)]

/-- The gap does not merge with the repeat after it. -/
theorem consolidate_gap_append {rest : List Pulse} (h : StartsRepeat (consolidate rest)) :
    consolidate (gap ++ rest) = low 30415 :: consolidate rest := by
  rw [gap_eq, List.singleton_append, consolidate_cons, mergeFront_of_head?_ne]
  · rfl
  · rcases startsRepeat_cases h with hc | ⟨d, c, -, hc⟩ <;> simp [hc, high]

/-- Alternating pulses in front of another level stay as they are. -/
theorem foldr_mergeFront_of_alternates {w c : List Pulse} {p : Pulse} (hw : Alternates (w ++ [p]))
    (hc : c.head?.map Pulse.level ≠ some p.level) : (w ++ [p]).foldr mergeFront c = w ++ p :: c := by
  induction w with
  | nil => exact mergeFront_of_head?_ne hc
  | cons q w ih =>
    cases w with
    | nil =>
      obtain ⟨hl, -⟩ := hw
      rw [List.cons_append, List.foldr_cons, ih trivial, List.nil_append, mergeFront_cons_of_ne hl]
      rfl
    | cons r w =>
      obtain ⟨hl, hw⟩ := hw
      rw [List.cons_append, List.foldr_cons, ih hw, List.cons_append, mergeFront_cons_of_ne hl]
      rfl

/-- The framing up to the software-sync high (R163, R164). -/
def framingHead (first : Bool) : List Pulse := (if first then wakeup ++ hsync 2 else hsync 7) ++ [high 4550]

theorem framing_eq_append (first : Bool) : framing first = framingHead first ++ [half false] := by
  cases first <;> rfl

/-- In front of a low pulse, consolidation leaves the framing alone up to the software-sync high. -/
theorem foldr_mergeFront_framingHead (first : Bool) {c : List Pulse} (hc : c.head?.map Pulse.level = some false) :
    (framingHead first).foldr mergeFront c = framingHead first ++ c := by
  have halt : Alternates (framingHead first) := by cases first <;> simp [framingHead, Alternates, hsync, wakeup, high, low]
  rw [framingHead] at halt ⊢
  rw [foldr_mergeFront_of_alternates halt (by simp [hc, high]), List.append_assoc, List.singleton_append]

theorem framingHead_head? (first : Bool) (c : List Pulse) :
    (framingHead first ++ c).head? = some (high (if first then 9415 else 2416)) := by
  cases first <;> rfl

section
variable {P : Pulse → Bool} (hP : ∀ p ∈ plainPulses, P p = false)
include hP

theorem half_plain (b : Bool) : P (half b) = false := hP _ (by cases b <;> decide)

/-- A payload that ends the sequence or stands before another repeat. -/
theorem countP_consolidate_lastBit (b : Bool) {rest : List Pulse} (h : StartsRepeat (consolidate rest)) :
    (consolidate (manchesterBit b ++ rest)).countP P = (consolidate rest).countP P := by
  have hhalf := half_plain hP
  rw [consolidate_manchesterBit_append, List.countP_cons_of_neg (by simp [hhalf])]
  rcases startsRepeat_cases h with hc | ⟨d, c, hd, hc⟩ <;> rw [hc]
  · simp [hhalf]
  · cases b with
    | false => rw [mergeFront_cons_of_ne (by simp [high]), List.countP_cons_of_neg (by simp [hhalf])]
    | true =>
      have hfirst : P (high d) = false := hP _ (by rcases hd with rfl | rfl <;> decide)
      have hmerged : P (high (604 + d)) = false := hP _ (by rcases hd with rfl | rfl <;> decide)
      rw [mergeFront_cons_of_eq (p := half true) (q := high d) rfl, List.countP_cons_of_neg (by simpa [high] using hmerged),
        List.countP_cons_of_neg (by simp [hfirst])]

/-- A payload with the gap after it. -/
theorem countP_consolidate_lastBit_gap (b : Bool) {rest : List Pulse} (h : StartsRepeat (consolidate rest)) :
    (consolidate (manchesterBit b ++ (gap ++ rest))).countP P
      = (consolidate rest).countP P + if P (gapPulse b) then 1 else 0 := by
  have hhalf := half_plain hP
  rw [consolidate_manchesterBit_append, List.countP_cons_of_neg (by simp [hhalf]), consolidate_gap_append h]
  cases b with
  | false =>
    rw [mergeFront_cons_of_eq (p := half false) (q := low 30415) rfl, List.countP_cons]
    rfl
  | true =>
    rw [mergeFront_cons_of_ne (by decide), List.countP_cons_of_neg (by simp [hhalf]), List.countP_cons]
    rfl

/-- The bits before the last one: their pulses are halves, alone or in pairs. -/
theorem countP_consolidate_bits (bs : List Bool) {rest c : List Pulse} {d : Bool} (h : consolidate rest = half d :: c) :
    ∃ d' c', consolidate (bs.flatMap manchesterBit ++ rest) = half d' :: c'
      ∧ (half d' :: c').countP P = (consolidate rest).countP P := by
  have hhalf := half_plain hP
  have hpair : ∀ b, P { level := b, dur := 1208 } = false := fun b => hP _ (by cases b <;> decide)
  induction bs with
  | nil => exact ⟨d, c, h, by rw [h]⟩
  | cons b bs ih =>
    obtain ⟨d', c', hc, hcount⟩ := ih
    refine ⟨!b, mergeFront (half b) (half d' :: c'), ?_, ?_⟩
    · rw [List.flatMap_cons, List.append_assoc, consolidate_manchesterBit_append, hc]
    · rw [← hcount]
      by_cases hl : b = d'
      · rw [mergeFront_cons_of_eq hl]
        simp [hhalf, hpair]
      · rw [mergeFront_cons_of_ne hl]
        simp [hhalf]

/-- One repeat in front of consolidated repeats: the framing, the payload and the gap add plain pulses only, but for the
gap. -/
theorem countP_consolidate_encodeRepeat (o : Frame) (first last : Bool) {rest : List Pulse}
    (h : StartsRepeat (consolidate rest)) :
    let c := consolidate (encodeRepeat o first last ++ rest)
    c.head? = some (high (if first then 9415 else 2416))
      ∧ c.countP P = (consolidate rest).countP P
          + if !last && P (gapPulse (o.b6.getLsbD 0)) then 1 else 0 := by
  have hplain : ∀ p ∈ framingHead first, P p = false := fun p hp => hP p (by revert p; cases first <;> decide)
  have hhalf := half_plain hP false
  have hpair : P (low 1208) = false := hP _ (by decide)
  obtain ⟨bs, hbs⟩ := payloadBits_eq_append o
  set b := o.b6.getLsbD 0
  let tail := manchesterBit b ++ ((if last then [] else gap) ++ rest)
  have htail : (consolidate tail).countP P
      = (consolidate rest).countP P + if !last && P (gapPulse b) then 1 else 0 := by
    cases last with
    | true => simpa [tail] using countP_consolidate_lastBit hP b h
    | false => simpa [tail] using countP_consolidate_lastBit_gap hP b h
  obtain ⟨d, c, hc, hcount⟩ := countP_consolidate_bits hP bs (rest := tail) (consolidate_manchesterBit_append ..)
  have hsplit : encodeRepeat o first last ++ rest
      = framingHead first ++ (half false :: (bs.flatMap manchesterBit ++ tail)) := by
    simp [encodeRepeat, framing_eq_append, manchester, hbs, tail]
  rw [hsplit, consolidate_append, consolidate_cons, hc, foldr_mergeFront_framingHead _ (by simp)]
  refine ⟨framingHead_head? .., ?_⟩
  rw [List.countP_append, List.countP_eq_zero.mpr (by simpa using hplain), Nat.zero_add, ← htail, ← hcount]
  cases d with
  | false =>
    rw [mergeFront_cons_of_eq rfl]
    simp [hhalf, show P { level := false, dur := 1208 } = false from hpair]
  | true =>
    rw [mergeFront_cons_of_ne (by decide)]
    simp [hhalf]

/-- The repeats of a sequence add one gap pulse each, unless they are flagged last. -/
theorem countP_consolidate_pulsesOf (rs : List (Frame × Bool × Bool)) :
    let c := consolidate (pulsesOf rs)
    StartsRepeat c ∧ c.countP P = rs.countP fun r => !r.2.2 && P (gapPulse (r.1.b6.getLsbD 0)) := by
  induction rs with
  | nil => exact ⟨nofun, rfl⟩
  | cons r rs ih =>
    obtain ⟨hstarts, hcount⟩ := ih
    obtain ⟨hhead, hc⟩ := countP_consolidate_encodeRepeat hP r.1 r.2.1 r.2.2 hstarts
    rw [pulsesOf, List.flatMap_cons]
    refine ⟨fun q hq => ?_, by rw [hc, hcount, List.countP_cons]⟩
    rw [hhead, Option.some_inj] at hq
    rw [← hq]
    split
    · exact .inr rfl
    · exact .inl rfl

end

/-- Every duration of consolidated repeats is between 604 and 89565 (R198). -/
theorem dur_bounded_of_mem_consolidate_pulsesOf (rs : List (Frame × Bool × Bool)) {p : Pulse}
    (hp : p ∈ consolidate (pulsesOf rs)) : 604 ≤ p.dur ∧ p.dur ≤ 89565 := by
  let P : Pulse → Bool := fun p => !decide (604 ≤ p.dur ∧ p.dur ≤ 89565)
  have hP : ∀ p ∈ plainPulses, P p = false := by decide
  have hgap : ∀ b, P (gapPulse b) = false := by decide
  obtain ⟨-, hcount⟩ := countP_consolidate_pulsesOf hP rs
  simp only [hgap, Bool.and_false, List.countP_false] at hcount
  simpa [P] using List.countP_eq_zero.mp hcount p hp

/-- No duration of a repeat overflows an entry word (R37, R160). -/
theorem dur_lt_of_mem_pulsesOf {rs : List (Frame × Bool × Bool)} {p : Pulse}
    (hp : p ∈ pulsesOf rs) : p.dur < 2 ^ 31 := by
  obtain ⟨r, -, hr⟩ := List.mem_flatMap.mp hp
  have := dur_mem_of_mem_encodeRepeat hr
  simp only [List.mem_cons, List.not_mem_nil, or_false] at this
  omega

/-- OUTLIST is a consolidated sequence of repeats once that is stored, every duration within the bounds (R198). -/
theorem outDurationsBounded_storeOut (rs : List (Frame × Bool × Bool)) (s : State)
    (hlen : (consolidate (pulsesOf rs)).length < 2 ^ 16) :
    OutDurationsBounded (storeOut (consolidate (pulsesOf rs)) s) := by
  intro p hp
  rw [outList_storeOut s hlen] at hp
  · exact dur_bounded_of_mem_consolidate_pulsesOf rs hp
  · intro q hq
    have := dur_bounded_of_mem_consolidate_pulsesOf rs hq
    omega

theorem SameBuffers.outDurationsBounded {s t : State} (h : SameBuffers s t) (hs : OutDurationsBounded s) :
    OutDurationsBounded t := by
  rwa [OutDurationsBounded, h.outList_eq]

/-- OUT only ever gets consolidated whole repeats (R170, R198). -/
theorem BufferStep.outDurationsBounded {s t : State} (h : BufferStep s t) (hw : WholeRepeats s)
    (hs : OutDurationsBounded s) : OutDurationsBounded t := by
  cases h with
  | kept h | rawEmptied h | repeatStored _ _ _ h => exact h.outDurationsBounded hs
  | consolidated _ hfits h =>
    obtain ⟨rs, hrs⟩ := hw
    rw [rawList, hrs, map_pulseOf_entry fun _ => dur_lt_of_mem_pulsesOf] at h hfits
    exact h.outDurationsBounded (outDurationsBounded_storeOut rs s (lt_of_le_capOf hfits))
  | transmissionStored o n _ hfits h =>
    have hlen := lt_of_le_capOf ((consolidate_length_le _).trans hfits)
    rw [repeatsOf_eq_pulsesOf] at h hlen
    exact h.outDurationsBounded (outDurationsBounded_storeOut _ _ hlen)

/-- Settles O48: OUT gets consolidated whole repeats, and a reset empties it. -/
theorem stepKeepsOutDurationsBounded : Obligations.StepKeepsOutDurationsBounded := by
  unfold Obligations.StepKeepsOutDurationsBounded
  intro s t h hw hs
  rcases step_bufferStep h with hb | ⟨u, rfl, -⟩
  · exact hb.outDurationsBounded hw hs
  · exact nofun

end Sys2Proof.Machine
end

section
/-! SUPPORT. The laws of built frames, of obfuscation and of the rolling code (R100, R121 to R123, R140 to R143, R220). -/

namespace Sys2Proof.Machine

/-- The checksum nibble enters the XOR of the finished frame's nibbles once more (R123). -/
theorem checksum_buildFrame (cmd : Nibble) (rc : BitVec 16) (addr : Word) (k : Nibble) :
    checksum { frameBody cmd rc addr with b1 := cmd.zeroExtend 8 <<< 4 ||| k.zeroExtend 8 }
      = checksum (frameBody cmd rc addr) ^^^ k := by
  simp only [checksum, Frame.bytes, frameBody, List.foldl, hiNibble_high_or_low, loNibble_high_or_low, hiNibble_high,
    loNibble_high, BitVec.ofNat_eq_ofNat, BitVec.xor_zero]
  ac_rfl

/-- The XOR of the 14 nibbles of a built frame is 0 (R123). -/
@[simp] theorem nibbleXor_buildFrame (cmd : Nibble) (rc : BitVec 16) (addr : Word) :
    nibbleXor (buildFrame cmd rc addr) = 0 := by
  rw [nibbleXor, buildFrame_eq, checksum_buildFrame]
  exact BitVec.xor_self

/-- The upper nibble of byte 1 is the command (R121). -/
theorem buildFrame_b1_shift (cmd : Nibble) (rc : BitVec 16) (addr : Word) :
    (buildFrame cmd rc addr).b1 >>> 4 = cmd.zeroExtend 8 := by
  rw [buildFrame_eq]
  ext i hi
  have hhigh : 8 ≤ 4 + i → cmd.getLsbD i = false := fun h => BitVec.getLsbD_of_ge _ _ (by omega)
  by_cases h : 4 + i < 8
  · simp [h]
  · simp [h, hhigh (by omega)]

/-- Byte 0 is KEY (R121). -/
theorem buildFrame_b0 (cmd : Nibble) (rc : BitVec 16) (addr : Word) : (buildFrame cmd rc addr).b0 = 0xA0 := rfl

/-- A byte of the low 24 address bits does not see the other eight. -/
theorem extractLsb'_and_mask (addr : Word) {j : Nat} (h : j + 8 ≤ 24) :
    (addr &&& 0x00FFFFFF).extractLsb' j 8 = addr.extractLsb' j 8 := by
  have hmask : ∀ k < 24, (0x00FFFFFF#32).getLsbD k = true := by decide
  ext i hi
  simp [hmask (j + i) (by omega)]

/-- Only the low 24 bits of ADDR go into the frame (R121). -/
theorem buildFrame_and_mask (cmd : Nibble) (rc : BitVec 16) (addr : Word) :
    buildFrame cmd rc (addr &&& 0x00FFFFFF) = buildFrame cmd rc addr := by
  have hbody : frameBody cmd rc (addr &&& 0x00FFFFFF) = frameBody cmd rc addr := by
    simp only [frameBody, extractLsb'_and_mask, Nat.reduceAdd, Nat.reduceLeDiff]
  rw [buildFrame_eq, hbody, ← buildFrame_eq]

/-- Settles O11: each law of a built frame. -/
theorem builtFrameLaws : Obligations.BuiltFrameLaws := by
  unfold Obligations.BuiltFrameLaws
  exact fun cmd rc addr => ⟨nibbleXor_buildFrame cmd rc addr, buildFrame_b1_shift cmd rc addr,
    buildFrame_b0 cmd rc addr, (buildFrame_and_mask cmd rc addr).symm⟩

/-- De-obfuscation undoes obfuscation: each byte is XOR-ed twice with the one before it (R141). -/
@[simp] theorem deobfuscate_obfuscate (f : Frame) : deobfuscate (obfuscate f) = f := by
  simp [deobfuscate, obfuscate]

@[simp] theorem obfuscate_deobfuscate (f : Frame) : obfuscate (deobfuscate f) = f := by
  simp [deobfuscate, obfuscate]

/-- The first payload bit is bit 7 of byte 0 (R162). -/
theorem payloadBits_head? (o : Frame) : (payloadBits o).head? = some (o.b0.getLsbD 7) := rfl

theorem obfuscate_buildFrame_b0 (cmd : Nibble) (rc : BitVec 16) (addr : Word) :
    (obfuscate (buildFrame cmd rc addr)).b0 = 0xA0 := rfl

/-- The positions up to `i + 1`. -/
theorem filter_le_succ (i : Fin 6) : ((List.finRange 7).filter fun k => k ≤ i.succ)
    = ((List.finRange 7).filter fun k => k ≤ i.castSucc) ++ [i.succ] := by
  revert i
  decide

/-- The closed form of the chain: byte `i` is the XOR of the bytes up to it (R140). -/
theorem obfuscate_byte (f : Frame) (i : Fin 7) : (obfuscate f).byte i
    = ((List.finRange 7).filter fun k => k ≤ i).foldl (fun x k => x ^^^ f.byte k) 0 := by
  induction i using Fin.induction with
  | zero => simp [List.finRange]
  | succ i ih =>
    rw [obfuscate_byte_succ, ih, filter_le_succ, List.foldl_append, BitVec.xor_comm]
    rfl

/-- Applied twice, the chain steps over every other byte. -/
theorem obfuscate_obfuscate_byte_add_two (f : Frame) (i : Fin 5) : (obfuscate (obfuscate f)).byte i.succ.succ
    = (obfuscate (obfuscate f)).byte i.castSucc.castSucc ^^^ f.byte i.succ.succ := by
  have hcancel : ∀ x y z : Byte, x ^^^ y ^^^ (y ^^^ z) = z ^^^ x := fun x y z => by
    rw [BitVec.xor_assoc, ← BitVec.xor_assoc y, BitVec.xor_self, BitVec.zero_xor, BitVec.xor_comm]
  rw [obfuscate_byte_succ (obfuscate f), obfuscate_byte_succ f, ← Fin.succ_castSucc,
    obfuscate_byte_succ (obfuscate f), hcancel]

/-- The positions of the same parity up to `i + 2`. -/
theorem filter_parity_add_two (i : Fin 5) :
    ((List.finRange 7).filter fun k => k ≤ i.succ.succ ∧ (i.succ.succ.val - k.val) % 2 = 0)
      = ((List.finRange 7).filter fun k => k ≤ i.castSucc.castSucc ∧ (i.castSucc.castSucc.val - k.val) % 2 = 0)
        ++ [i.succ.succ] := by
  revert i
  decide

/-- The closed form of the chain applied twice: the bytes of the same parity (R142). -/
theorem obfuscate_obfuscate_byte (f : Frame) (i : Fin 7) : (obfuscate (obfuscate f)).byte i
    = ((List.finRange 7).filter fun k => k ≤ i ∧ (i.val - k.val) % 2 = 0).foldl (fun x k => x ^^^ f.byte k) 0 := by
  obtain ⟨n, hn⟩ := i
  induction n using Nat.twoStepInduction with
  | zero => simp [List.finRange]
  | one => simp [List.finRange, obfuscate, Frame.byte]
  | more n ih _ =>
    have hbyte := obfuscate_obfuscate_byte_add_two f ⟨n, by omega⟩
    have hpositions := filter_parity_add_two ⟨n, by omega⟩
    simp only [Fin.succ_mk, Fin.castSucc_mk] at hbyte hpositions
    rw [hbyte, hpositions, List.foldl_append, ih (by omega)]
    rfl

/-- Settles O14: the two inverses, the closed forms, a frame that obfuscating twice does not give back, and the key byte
at the front of every obfuscated built frame. -/
theorem obfuscationLaws : Obligations.ObfuscationLaws := by
  unfold Obligations.ObfuscationLaws
  refine ⟨fun f => ⟨deobfuscate_obfuscate f, obfuscate_deobfuscate f, obfuscate_byte f, obfuscate_obfuscate_byte f⟩,
    ⟨⟨1, 0, 0, 0, 0, 0, 0⟩, by decide⟩, fun cmd rc addr => ⟨obfuscate_buildFrame_b0 cmd rc addr, ?first⟩⟩
  case first => rw [payloadBits_head?, obfuscate_buildFrame_b0]; decide

/-- The successor wraps from 0xFFFF to 1, and elsewhere adds 1 (R220). -/
theorem nextRc_toNat (rc : BitVec 16) : (nextRc rc).toNat = if rc = 0xFFFF then 1 else rc.toNat + 1 := by
  rw [nextRc]
  split_ifs with h
  · rfl
  · rw [BitVec.toNat_eq] at h
    have := rc.isLt
    simp at *
    omega

/-- Settles O29: the successor's value is never 0. -/
theorem nextRollingCodeSkipsZero : Obligations.NextRollingCodeSkipsZero := by
  unfold Obligations.NextRollingCodeSkipsZero
  refine ⟨rfl, fun rc => ⟨fun h => ?nonzero, fun h => by rw [nextRc_toNat, if_neg h]⟩⟩
  case nonzero =>
    have hpos : 0 < (nextRc rc).toNat := by
      rw [nextRc_toNat]
      split_ifs <;> omega
    rw [h] at hpos
    exact absurd hpos (lt_irrefl 0)

end Sys2Proof.Machine
end

section
/-! SUPPORT. The duration of a repeat and the levels of its neighbours (R165, R166, R192), and the raw length of a
transmission (R210, R211). -/

namespace Sys2Proof.Machine

/-- A repeat lasts as long as its parts, whatever the frame (R166). -/
theorem totalDur_encodeRepeat (o : Frame) (first last : Bool) : totalDur (encodeRepeat o first last) =
    (if first then 113798 else 38978) + 67648 + if last then 0 else 30415 := by
  have hframing : totalDur (framing first) = if first then 113798 else 38978 := by cases first <;> rfl
  rw [encodeRepeat, totalDur_append, totalDur_append, totalDur_manchester, hframing]
  cases last <;> rfl

/-- Settles O17: the table of lengths is `rawLen`, that of durations `totalDur_encodeRepeat`. -/
theorem repeatLengthAndDuration : Obligations.RepeatLengthAndDuration := by
  unfold Obligations.RepeatLengthAndDuration
  intro o
  simp only [encodeRepeat_length, totalDur_encodeRepeat]
  decide

/-- The raw length of a transmission as a linear function (R210). -/
theorem txRawLen_eq {n : Nat} (hn : 1 ≤ n) : txRawLen n = 120 + 129 * (n - 1) := by
  rw [txRawLen]
  split_ifs <;> omega

/-- `max_repeats` is the largest repeat count that fits (R211). -/
theorem txRawLen_le_iff {n : Nat} (hn : 1 ≤ n) (cap : Nat) : txRawLen n ≤ cap ↔ n ≤ maxRepeats cap := by
  rw [txRawLen_eq hn, maxRepeats]
  split_ifs <;> omega

/-- Settles O23: the repeat loop has the raw length, which is linear in the repeat count. -/
theorem rawLengthAndMaxRepeats : Obligations.RawLengthAndMaxRepeats := by
  unfold Obligations.RawLengthAndMaxRepeats
  exact ⟨fun o n hn => ⟨repeatsOf_length (by omega), txRawLen_eq hn⟩, fun cap n hn => txRawLen_le_iff hn cap, rfl⟩

/-- Which half of which payload bit a payload pulse is, and its level (R161, R162). -/
theorem manchester_getElem?_level {o : Frame} {k : Nat} {p : Pulse} (h : (manchester o)[k]? = some p) :
    ∃ m b, (payloadBits o)[m]? = some b ∧ ((k = 2 * m ∧ p.level = !b) ∨ (k = 2 * m + 1 ∧ p.level = b)) := by
  obtain ⟨hk, -⟩ := List.getElem?_eq_some_iff.mp h
  rw [manchester_length] at hk
  have hbit : (payloadBits o)[k / 2]? = some ((payloadBits o)[k / 2]'(by rw [payloadBits_length]; omega)) :=
    List.getElem?_eq_getElem _
  obtain ⟨hfirst, hsecond⟩ := manchester_getElem?_of_payloadBits hbit
  refine ⟨k / 2, _, hbit, ?_⟩
  rcases Nat.mod_two_eq_zero_or_one k with hmod | hmod
  · have he : k = 2 * (k / 2) := by omega
    rw [← he, h, Option.some_inj] at hfirst
    exact .inl ⟨he, by rw [hfirst]⟩
  · have he : k = 2 * (k / 2) + 1 := by omega
    rw [← he, h, Option.some_inj] at hsecond
    exact .inr ⟨he, by rw [hsecond]⟩

/-- Where a pulse of a repeat stands, and its level: in the framing, in the first or the second half of a payload bit, or in
the gap (R161 to R164). -/
theorem encodeRepeat_getElem?_level {o : Frame} {first last : Bool} {j pre : Nat} {p : Pulse}
    (hpre : (framing first).length = pre) (h : (encodeRepeat o first last)[j]? = some p) :
    (j < pre ∧ p.level = decide (j % 2 = 0))
      ∨ (∃ m b, j = pre + 2 * m ∧ (payloadBits o)[m]? = some b ∧ p.level = !b)
      ∨ (∃ m b, j = pre + 2 * m + 1 ∧ (payloadBits o)[m]? = some b ∧ p.level = b)
      ∨ (last = false ∧ j = pre + 112 ∧ p.level = false) := by
  rw [encodeRepeat, List.append_assoc] at h
  rcases Nat.lt_or_ge j pre with hj | hj
  · rw [List.getElem?_append_left (by rwa [hpre])] at h
    have hlevels : ∀ j < (framing first).length, ((framing first)[j]?).map Pulse.level = some (decide (j % 2 = 0)) := by
      cases first <;> decide
    have hl := hlevels j (by rwa [hpre])
    rw [h, Option.map_some, Option.some_inj] at hl
    exact .inl ⟨hj, hl⟩
  rw [List.getElem?_append_right (by rwa [hpre]), hpre] at h
  rcases Nat.lt_or_ge (j - pre) 112 with hm | hm
  · rw [List.getElem?_append_left (by rwa [manchester_length])] at h
    obtain ⟨m, b, hb, ⟨hk, hl⟩ | ⟨hk, hl⟩⟩ := manchester_getElem?_level h
    · exact .inr (.inl ⟨m, b, by omega, hb, hl⟩)
    · exact .inr (.inr (.inl ⟨m, b, by omega, hb, hl⟩))
  · rw [List.getElem?_append_right (by rwa [manchester_length]), manchester_length] at h
    cases last with
    | true => simp at h
    | false =>
      rw [if_neg (by decide), gap_eq, List.getElem?_singleton] at h
      split_ifs at h with h0
      obtain rfl := Option.some_inj.mp h
      exact .inr (.inr (.inr ⟨rfl, by omega, rfl⟩))

/-- Where two neighbours of a repeat stand, and their levels: inside the framing or inside a payload bit, where they
differ; at the payload's start; around two payload bits; or at the gap. -/
theorem encodeRepeat_neighbours {o : Frame} {first last : Bool} {j pre : Nat} {p q : Pulse}
    (hpre : (framing first).length = pre) (hp : (encodeRepeat o first last)[j]? = some p)
    (hq : (encodeRepeat o first last)[j + 1]? = some q) :
    ((j + 1 < pre ∨ ∃ m, m < 56 ∧ j = pre + 2 * m) ∧ p.level ≠ q.level)
      ∨ (∃ b, j + 1 = pre ∧ (payloadBits o)[0]? = some b ∧ p.level = false ∧ q.level = !b)
      ∨ (∃ m a b, j = pre + 2 * m + 1 ∧ (payloadBits o)[m]? = some a ∧ (payloadBits o)[m + 1]? = some b
          ∧ p.level = a ∧ q.level = !b)
      ∨ (∃ a, last = false ∧ j + 1 = pre + 112 ∧ (payloadBits o)[55]? = some a ∧ p.level = a ∧ q.level = false) := by
  have heven : pre % 2 = 0 := by
    rw [← hpre]
    cases first <;> rfl
  have hbits : ∀ m b, (payloadBits o)[m]? = some b → m < 56 := fun m b h => (List.getElem?_eq_some_iff.mp h).1
  rcases encodeRepeat_getElem?_level hpre hp with ⟨hj, hlp⟩ | ⟨m, a, hj, ha, hlp⟩ | ⟨m, a, hj, ha, hlp⟩ | ⟨-, hj, -⟩ <;>
    rcases encodeRepeat_getElem?_level hpre hq with
      ⟨hj', hlq⟩ | ⟨m', b, hj', hb, hlq⟩ | ⟨m', b, hj', hb, hlq⟩ | ⟨hlast, hj', hlq⟩
  case inl.inl =>
    refine .inl ⟨.inl hj', ?_⟩
    rw [hlp, hlq, Ne, decide_eq_decide]
    omega
  case inl.inr.inl =>
    obtain rfl : m' = 0 := by omega
    exact .inr (.inl ⟨b, by omega, hb, by rw [hlp, decide_eq_false_iff_not]; omega, hlq⟩)
  case inr.inl.inr.inr.inl =>
    obtain rfl : m' = m := by omega
    obtain rfl : b = a := Option.some_inj.mp (hb.symm.trans ha)
    exact .inl ⟨.inr ⟨m', hbits m' b hb, hj⟩, by simp [hlp, hlq]⟩
  case inr.inr.inl.inr.inl =>
    obtain rfl : m' = m + 1 := by omega
    exact .inr (.inr (.inl ⟨m, a, b, hj, ha, hb, hlp, hlq⟩))
  case inr.inr.inl.inr.inr.inr =>
    obtain rfl : m = 55 := by omega
    exact .inr (.inr (.inr ⟨a, hlast, hj', ha, hlp, hlq⟩))
  case inr.inl.inr.inr.inr => have := hbits m a ha; omega
  case inr.inr.inr.inr.inl => have := hbits m' b hb; omega
  case inr.inr.inr.inr.inr.inl => have := hbits m' b hb; omega
  all_goals omega

/-- Settles O18: the levels of two neighbours, by where they stand. -/
theorem equalNeighboursInARepeat : Obligations.EqualNeighboursInARepeat := by
  unfold Obligations.EqualNeighboursInARepeat
  intro o first last j p q pre hp hq
  have hpre : (framing first).length = pre := framing_length first
  have hfirst : pre = 8 ∨ pre = 16 := by cases first <;> simp [pre]
  rcases encodeRepeat_neighbours hpre hp hq with
    ⟨hj, hne⟩ | ⟨b, hj, hb, hlp, hlq⟩ | ⟨m, a, b, hj, ha, hb, hlp, hlq⟩ | ⟨a, hlast, hj, ha, hlp, hlq⟩ <;>
    clear_value pre
  case inl =>
    refine iff_of_false hne ?_
    rintro (⟨h, -⟩ | ⟨m, a, b, h, -⟩ | ⟨-, h, -⟩) <;> omega
  case inr.inl =>
    rw [hlp, hlq, hb]
    constructor
    · intro hl
      exact .inl ⟨hj, by simpa using hl⟩
    · rintro (⟨-, h⟩ | ⟨m, a, b, h, -⟩ | ⟨-, h, -⟩)
      · simpa using h
      all_goals omega
  case inr.inr.inl =>
    rw [hlp, hlq, Bool.eq_not]
    constructor
    · exact fun hne => .inr (.inl ⟨m, a, b, hj, ha, hb, hne⟩)
    · rintro (⟨h, -⟩ | ⟨m', a', b', h, ha', hb', hne⟩ | ⟨-, h, -⟩)
      · omega
      · obtain rfl : m' = m := by omega
        rw [ha, Option.some_inj] at ha'
        rw [hb, Option.some_inj] at hb'
        rwa [ha', hb']
      · obtain ⟨hlt, -⟩ := List.getElem?_eq_some_iff.mp hb
        rw [payloadBits_length] at hlt
        omega
  case inr.inr.inr =>
    rw [hlp, hlq, ha]
    constructor
    · exact fun hl => .inr (.inr ⟨hlast, hj, by rw [hl]⟩)
    · rintro (⟨h, -⟩ | ⟨m, a', b, h, -, hb, -⟩ | ⟨-, -, h⟩)
      · omega
      · obtain ⟨hlt, -⟩ := List.getElem?_eq_some_iff.mp hb
        rw [payloadBits_length] at hlt
        omega
      · exact Option.some_inj.mp h

end Sys2Proof.Machine
end

section
/-! SUPPORT. What a successful BUILD_TRANSMISSION leaves, and the laws of its output (R215 to R218). -/

namespace Sys2Proof.Machine

/-- Every repeat of a transmission but the last has a gap (R213). -/
theorem repeatsOf_add_one (o : Frame) (m : Nat) : repeatsOf o (m + 1) =
    ((List.range m).flatMap fun i => encodeRepeat o (i == 0) false) ++ encodeRepeat o (m == 0) true := by
  have hgaps : ((List.range m).flatMap fun i => encodeRepeat o (i == 0) (i == m))
      = (List.range m).flatMap fun i => encodeRepeat o (i == 0) false :=
    List.flatMap_congr fun i hi => by rw [beq_false_of_ne (List.mem_range.mp hi).ne]
  rw [repeatsOf, Nat.add_sub_cancel, List.range_succ, List.flatMap_append, hgaps]
  simp

/-- A transmission starts with the wake-up pulse (R163, R164). -/
theorem repeatsOf_add_one_eq_cons (o : Frame) (m : Nat) :
    ∃ rest, repeatsOf o (m + 1) = high 9415 :: low 89565 :: rest := by
  rw [repeatsOf, List.range_succ_eq_map, List.flatMap_cons]
  exact ⟨_, rfl⟩

/-- A first pulse that differs in level from the next one is not merged. -/
theorem consolidate_head?_of_ne {p q : Pulse} (h : p.level ≠ q.level) (rest : List Pulse) :
    (consolidate (p :: q :: rest)).head? = some p := by
  rw [consolidate_cons, mergeFront_of_head?_ne]
  · rfl
  · rw [consolidate_head?_level]
    simpa [eq_comm] using h

/-- A last pulse that differs in level from the one before it is not merged. -/
theorem consolidate_getLast?_of_ne {p q : Pulse} (h : p.level ≠ q.level) (before : List Pulse) :
    (consolidate (before ++ [p] ++ [q])).getLast? = some q := by
  obtain ⟨xs, r, hxs⟩ : ∃ xs r, consolidate (before ++ [p]) = xs ++ [r] :=
    (List.eq_nil_or_concat' _).resolve_left (by simp)
  have hr : r.level = p.level := by
    have := consolidate_getLast?_level (before ++ [p])
    rw [hxs] at this
    simpa using this
  rw [consolidate_append_seam hxs (show consolidate [q] = q :: [] from rfl), if_neg (hr ▸ h)]
  exact List.getLast?_concat

/-- The last payload bit of the last repeat is the last thing sent (R161, R164). -/
theorem consolidate_repeatsOf_getLast? (o : Frame) (m : Nat) :
    (consolidate (repeatsOf o (m + 1))).getLast? = some (half (o.b6.getLsbD 0)) := by
  obtain ⟨bs, hbs⟩ := payloadBits_eq_append o
  set b := o.b6.getLsbD 0
  have hsplit : ∃ before, repeatsOf o (m + 1) = before ++ [half (!b)] ++ [half b] := by
    refine ⟨((List.range m).flatMap fun i => encodeRepeat o (i == 0) false)
      ++ (framing (m == 0) ++ bs.flatMap manchesterBit), ?_⟩
    rw [repeatsOf_add_one, encodeRepeat, manchester, hbs]
    simp [manchesterBit_eq]
  obtain ⟨before, hbefore⟩ := hsplit
  rw [hbefore, consolidate_getLast?_of_ne (by simp)]

/-- All repeats but the last have a gap. -/
theorem countP_range_not_last (m : Nat) : ((List.range (m + 1)).countP fun i => !(i == m)) = m := by
  have hall : ((List.range m).countP fun i => !(i == m)) = (List.range m).length := by
    rw [List.countP_eq_length]
    intro i hi
    simpa using (List.mem_range.mp hi).ne
  rw [List.range_succ, List.countP_append, hall, List.length_range]
  simp

/-- The gap, merged with a low last half or not, is in the output once for each repeat but the last (R216). -/
theorem occurrences_gapPulse (o : Frame) (m : Nat) :
    occurrences (gapPulse (o.b6.getLsbD 0)) (consolidate (repeatsOf o (m + 1))) = m := by
  set g := gapPulse (o.b6.getLsbD 0)
  have hplain : ∀ p ∈ plainPulses, (p == g) = false := by
    cases hb : o.b6.getLsbD 0 <;> simp only [g, hb] <;> decide
  obtain ⟨-, hcount⟩ := countP_consolidate_pulsesOf (P := (· == g)) hplain
    ((List.range (m + 1)).map fun i => (o, i == 0, i == m + 1 - 1))
  rw [← repeatsOf_eq_pulsesOf, List.countP_map] at hcount
  have hflags : ((fun r => !r.2.2 && gapPulse (r.1.b6.getLsbD 0) == g) ∘ fun i => (o, i == 0, i == m + 1 - 1))
      = fun i => !(i == m) := by
    funext i
    simp [g]
  rw [occurrences, ← List.countP_eq_length_filter, hcount, hflags, countP_range_not_last]

/-- The total duration of a transmission (R216). -/
theorem totalDur_repeatsOf (o : Frame) (m : Nat) : totalDur (repeatsOf o (m + 1)) = 181446 + 137041 * m := by
  match m with
  | 0 => simp [repeatsOf, totalDur_encodeRepeat]
  | m + 1 =>
    have hmiddle : totalDur ((List.range m).flatMap fun _ => encodeRepeat o false false) = 137041 * m := by
      induction m with
      | zero => rfl
      | succ m ih =>
        rw [List.range_succ, List.flatMap_append, totalDur_append, ih, List.flatMap_singleton, totalDur_encodeRepeat]
        simp
        omega
    rw [repeatsOf_add_two, totalDur_append, totalDur_append, hmiddle, totalDur_encodeRepeat, totalDur_encodeRepeat]
    simp
    omega

/-- RAWLIST is the repeats once they are stored from entry 0 on. -/
theorem rawList_storeRaw_repeatsOf (o : Frame) (n : Nat) {s : State} (h : (repeatsOf o n).length < 2 ^ 16) :
    rawList (storeRaw 0 (repeatsOf o n) s) = repeatsOf o n := by
  rw [rawList, rawWords_storeRaw_zero h, map_pulseOf_entry]
  rw [repeatsOf_eq_pulsesOf]
  exact fun _ => dur_lt_of_mem_pulsesOf

/-- OUTLIST is the consolidated repeats once they are stored. -/
theorem outList_storeOut_repeatsOf (o : Frame) (n : Nat) (s : State) (h : (consolidate (repeatsOf o n)).length < 2 ^ 16) :
    outList (storeOut (consolidate (repeatsOf o n)) s) = consolidate (repeatsOf o n) := by
  refine outList_storeOut s h fun p hp => ?_
  rw [repeatsOf_eq_pulsesOf] at hp
  have := dur_bounded_of_mem_consolidate_pulsesOf _ hp
  omega

/-- What a BUILD_TRANSMISSION that reports no error has done (R212, R214): the repeats fit, FRAME is the obfuscated built
frame, RAWLIST the repeats, and OUTLIST their consolidation. -/
structure Transmitted (s t : State) (o : Frame) (n : Nat) : Prop where
  repeats : s.repeats.toNat = n + 1
  frame_eq : o = obfuscate (buildFrame s.cmd s.rc s.addr)
  frame : t.frame = o
  rawList : rawList t = repeatsOf o (n + 1)
  outList : outList t = consolidate (repeatsOf o (n + 1))
  rawCount : t.rawCount.toNat = (repeatsOf o (n + 1)).length
  outCount : t.outCount.toNat = (consolidate (repeatsOf o (n + 1))).length

theorem transmitted_of_success {s t : State} (h : exec .buildTransmission s = .next t) (herr : t.err = 0) :
    ∃ o n, Transmitted s t o n := by
  rcases execBuildTransmission_cases h with ⟨-, rfl⟩ | ⟨e, -, he, rfl⟩ | ⟨o, raw, out, hs, hok, rfl⟩
  · simp at herr
  · exact absurd ((ErrCode.code_eq_zero_iff e).mp herr) (buildTransmission_error_ne_ok he)
  · obtain ⟨-, hn, hfits, ho, rfl, rfl, hout⟩ := buildTransmission_ok hok
    obtain ⟨n, hn'⟩ : ∃ n, s.repeats.toNat = n + 1 :=
      Nat.exists_eq_succ_of_ne_zero (by simpa [BitVec.toNat_eq] using hn)
    rw [hn'] at hfits hout ⊢
    rw [← repeatsOf_length (o := o) n.succ_ne_zero] at hfits
    refine ⟨o, n, hn', ho, rfl, rawList_storeRaw_repeatsOf o (n + 1) (lt_of_le_capOf hfits),
      outList_storeOut_repeatsOf o (n + 1) _ (lt_of_le_capOf hout), ?_, ?_⟩
    · rw [succeed_rawCount, setHanded_rawCount, storeOut_rawCount, storeRaw_rawCount, Nat.zero_add]
      exact Nat.mod_eq_of_lt (lt_of_le_capOf hfits)
    · exact Nat.mod_eq_of_lt (lt_of_le_capOf hout)

/-- The command is in the de-obfuscated byte 1 (R121, R140). -/
theorem obfuscate_buildFrame_command (cmd : Nibble) (rc : BitVec 16) (addr : Word) :
    ((obfuscate (buildFrame cmd rc addr)).b1 ^^^ (obfuscate (buildFrame cmd rc addr)).b0) >>> 4 = cmd.zeroExtend 8 := by
  rw [← buildFrame_b1_shift cmd rc addr]
  congr 1
  simp [obfuscate]

/-- Settles O25: each law of the consolidated repeats, which OUTLIST is. -/
theorem transmissionLaws : Obligations.TransmissionLaws := by
  unfold Obligations.TransmissionLaws
  intro s t h herr n
  obtain ⟨o, m, ht⟩ := transmitted_of_success h herr
  obtain ⟨rest, hrest⟩ := repeatsOf_add_one_eq_cons o m
  have hn : n - 1 = m := by simp [n, ht.repeats]
  rw [hn, ht.outList, ht.rawList, ht.outCount, ht.frame, totalDur_consolidate]
  refine ⟨by simp [n, ht.repeats], ?nonempty, ?start, ?finish, occurrences_gapPulse o m, rfl, consolidate_alternates _,
    totalDur_repeatsOf o m, totalDur_repeatsOf o m, ht.frame_eq, ?command⟩
  case nonempty =>
    rw [List.length_pos_iff, Ne, consolidate_eq_nil_iff, hrest]
    exact List.cons_ne_nil _ _
  case start =>
    rw [← List.head?_eq_getElem?, hrest]
    exact consolidate_head?_of_ne (by decide) rest
  case finish =>
    rw [consolidate_repeatsOf_getLast?]
    cases o.b6.getLsbD 0 <;> simp
  case command => rw [ht.frame_eq, obfuscate_buildFrame_command]

/-- The neighbours at the seam of two lists, and those inside each. -/
theorem equalNeighbours_append (before after : List Pulse) (p : Pulse) :
    equalNeighbours (before ++ p :: after) = equalNeighbours (before ++ [p]) + equalNeighbours (p :: after) := by
  induction before with
  | nil => simp
  | cons q before ih =>
    cases before with
    | nil => simp [Nat.add_comm]
    | cons r before =>
      simp only [List.cons_append, equalNeighbours_cons_cons] at ih ⊢
      rw [ih]
      omega

@[simp] theorem changes_singleton (b : Bool) : changes [b] = 0 := rfl

@[simp] theorem changes_cons_cons (a b : Bool) (bs : List Bool) :
    changes (a :: b :: bs) = changes (b :: bs) + if a = b then 0 else 1 := by
  by_cases h : a = b <;> simp [changes, h]

/-- In a payload, equal neighbours stand where the bit changes (R192). -/
theorem equalNeighbours_bits (b : Bool) (bs : List Bool) (after : List Pulse) :
    equalNeighbours ((b :: bs).flatMap manchesterBit ++ after)
      = changes (b :: bs) + equalNeighbours (half ((b :: bs).getLast (List.cons_ne_nil b bs)) :: after) := by
  induction bs generalizing b with
  | nil => simp [manchesterBit_eq]
  | cons c bs ih =>
    have hcons : (c :: bs).flatMap manchesterBit ++ after
        = half (!c) :: half c :: (bs.flatMap manchesterBit ++ after) := by simp [manchesterBit_eq]
    have hseam : equalNeighbours ((b :: c :: bs).flatMap manchesterBit ++ after)
        = equalNeighbours ((c :: bs).flatMap manchesterBit ++ after) + if b = c then 0 else 1 := by
      rw [List.flatMap_cons, List.append_assoc, hcons, manchesterBit_eq]
      cases b <;> cases c <;> simp
    rw [hseam, ih, changes_cons_cons, List.getLast_cons_cons]
    omega

theorem equalNeighbours_cons_of_head?_ne {p : Pulse} {ps : List Pulse} (h : ps.head?.map Pulse.level ≠ some p.level) :
    equalNeighbours (p :: ps) = equalNeighbours ps := by
  cases ps with
  | nil => rfl
  | cons q rest =>
    have hne : p.level ≠ q.level := by simpa [eq_comm] using h
    rw [equalNeighbours_cons_cons, if_neg hne, Nat.add_zero]

/-- Every repeat starts high (R163, R164). -/
@[simp] theorem encodeRepeat_head?_level (o : Frame) (first last : Bool) :
    (encodeRepeat o first last).head?.map Pulse.level = some true := by
  cases first <;> rfl

/-- The neighbours of the last payload half: the gap, or nothing. -/
theorem equalNeighbours_last_half (b last : Bool) {rest : List Pulse} (h : rest.head?.map Pulse.level ≠ some false)
    (hlast : last = true → rest = []) :
    equalNeighbours (half b :: ((if last then [] else gap) ++ rest))
      = (if !last && !b then 1 else 0) + equalNeighbours rest := by
  cases last with
  | true => simp [hlast]
  | false =>
    have hgap : equalNeighbours (low 30415 :: rest) = equalNeighbours rest := equalNeighbours_cons_of_head?_ne h
    cases b <;> simp [gap_eq, Nat.add_comm, ← hgap, low]

/-- One repeat in front of another, or of nothing: the payload's first bit, its changes and its last bit before a gap say how
many neighbours are equal (R192). -/
theorem equalNeighbours_encodeRepeat (o : Frame) (first last : Bool) {rest : List Pulse}
    (h : rest.head?.map Pulse.level ≠ some false) (hlast : last = true → rest = []) :
    equalNeighbours (encodeRepeat o first last ++ rest)
      = (if o.b0.getLsbD 7 then 1 else 0) + changes (payloadBits o)
        + ((if !last && !o.b6.getLsbD 0 then 1 else 0) + equalNeighbours rest) := by
  obtain ⟨bs, hbs⟩ := List.head?_eq_some_iff.mp (payloadBits_head? o)
  have hend : (o.b0.getLsbD 7 :: bs).getLast (List.cons_ne_nil _ bs) = o.b6.getLsbD 0 := by
    have hget : (payloadBits o).getLast? = some (o.b6.getLsbD 0) := rfl
    rwa [hbs, List.getLast?_eq_some_getLast (List.cons_ne_nil _ bs), Option.some_inj] at hget
  set b := o.b0.getLsbD 7
  let tail := (if last then [] else gap) ++ rest
  have hsplit : encodeRepeat o first last ++ rest
      = framingHead first ++ half false :: ((b :: bs).flatMap manchesterBit ++ tail) := by
    simp [encodeRepeat, framing_eq_append, manchester, hbs, tail]
  have hframing : equalNeighbours (framingHead first ++ [half false]) = 0 := by cases first <;> decide
  have hstart : equalNeighbours (half false :: ((b :: bs).flatMap manchesterBit ++ tail))
      = equalNeighbours ((b :: bs).flatMap manchesterBit ++ tail) + if b then 1 else 0 := by
    rw [List.flatMap_cons, manchesterBit_eq]
    cases b <;> simp
  rw [hsplit, equalNeighbours_append, hframing, hstart, equalNeighbours_bits, hend,
    equalNeighbours_last_half _ _ h hlast, hbs]
  omega

/-- Repeats with gaps, in front of another repeat. -/
theorem equalNeighbours_flatMap_encodeRepeat (o : Frame) (l : List Nat) {rest : List Pulse}
    (h : rest.head?.map Pulse.level = some true) :
    let all := (l.flatMap fun i => encodeRepeat o (i == 0) false) ++ rest
    all.head?.map Pulse.level = some true
      ∧ equalNeighbours all = l.length * ((if o.b0.getLsbD 7 then 1 else 0) + changes (payloadBits o)
          + if o.b6.getLsbD 0 then 0 else 1) + equalNeighbours rest := by
  induction l with
  | nil => simp [h]
  | cons i l ih =>
    obtain ⟨hhead, hcount⟩ := ih
    rw [List.flatMap_cons, List.append_assoc]
    refine ⟨by cases i == 0 <;> rfl, ?_⟩
    have hfirst := equalNeighbours_encodeRepeat o (i == 0) false (by rw [hhead]; simp) nofun
    rw [hfirst, hcount, List.length_cons]
    cases o.b6.getLsbD 0
    · simp only [Bool.not_false, Bool.and_true, if_true, Bool.false_eq_true, if_false]
      ring
    · simp only [Bool.not_true, Bool.and_false, if_true, Bool.false_eq_true, if_false]
      ring

/-- The number of equal neighbours in a transmission whose payload starts with 1 (R215). -/
theorem equalNeighbours_repeatsOf {o : Frame} (ho : o.b0.getLsbD 7 = true) (m : Nat) :
    equalNeighbours (repeatsOf o (m + 1))
      = (m + 1) * (1 + changes (payloadBits o)) + m * if o.b6.getLsbD 0 then 0 else 1 := by
  obtain ⟨-, hgaps⟩ := equalNeighbours_flatMap_encodeRepeat o (List.range m) (encodeRepeat_head?_level o (m == 0) true)
  have hlast := equalNeighbours_encodeRepeat o (m == 0) true (rest := []) (by simp) fun _ => rfl
  simp only [List.append_nil, Bool.not_true, Bool.false_and, Bool.false_eq_true, if_false, equalNeighbours_nil] at hlast
  rw [repeatsOf_add_one, hgaps, hlast, ho, List.length_range, if_pos rfl]
  ring

/-- Settles O26: the output is shorter than the repeats by the number of equal neighbours. -/
theorem transmissionOutputLength : Obligations.TransmissionOutputLength := by
  unfold Obligations.TransmissionOutputLength
  intro s t h herr n
  obtain ⟨o, m, ht⟩ := transmitted_of_success h herr
  have hfirst : o.b0.getLsbD 7 = true := by
    rw [ht.frame_eq, obfuscate_buildFrame_b0]
    decide
  have hn : n = m + 1 := ht.repeats
  have hlen := consolidate_length_add (repeatsOf o (m + 1))
  rw [equalNeighbours_repeatsOf hfirst] at hlen
  rw [ht.outCount, ht.rawCount, ht.frame, hn, Nat.add_sub_cancel, Nat.add_assoc, hlen, repeatsOf_length m.succ_ne_zero,
    txRawLen_eq m.succ_pos]
  exact ⟨rfl, rfl⟩

end Sys2Proof.Machine
end

section
/-! SUPPORT. The decomposed path of a transmission: the same state, operation by operation (R219). -/

namespace Sys2Proof.Machine

/-- The first operation's next state is where the rest goes on. -/
theorem execAll_cons_of_next {i : Instr} {s t : State} (h : exec i s = .next t) (is : List Instr) :
    execAll (i :: is) s = execAll is t := by
  rw [execAll, h]

theorem execAll_append_of_next {is js : List Instr} {s t : State} (h : execAll is s = .next t) :
    execAll (is ++ js) s = execAll js t := by
  induction is generalizing s with
  | nil =>
    cases h
    rfl
  | cons i is ih =>
    rw [execAll] at h
    rw [List.cons_append, execAll]
    split at h
    · exact ih h
    · cases h
    · cases h

/-- A repeat appended to a list stored from entry 0 on is the longer list stored. -/
theorem storeRaw_storeRaw_append {ps : List Pulse} (qs : List Pulse) (s : State) (h : ps.length < 2 ^ 16) :
    let u := succeed (storeRaw 0 ps s)
    succeed (storeRaw u.rawCount.toNat qs u) = succeed (storeRaw 0 (ps ++ qs) s) := by
  intro u
  have hcount : u.rawCount.toNat = ps.length := by
    rw [succeed_rawCount, storeRaw_rawCount, Nat.zero_add]
    exact Nat.mod_eq_of_lt h
  have hraw := storeAt_storeAt_append s.raw (ps.map entry) (qs.map entry)
  rw [List.length_map, ← List.map_append] at hraw
  rw [hcount]
  simp [u, storeRaw, succeed, setErr, clearPending, hraw]

/-- An ENCODE_REPEAT that fits, after a list stored from entry 0 on (R172). -/
theorem exec_encodeRepeat_appends {o : Frame} {first last : Bool} {ps : List Pulse} {s : State}
    (h : (ps ++ encodeRepeat o first last).length ≤ capOf s) :
    exec (.encodeRepeat first last) (succeed (storeRaw 0 ps (putFrame o s)))
      = .next (succeed (storeRaw 0 (ps ++ encodeRepeat o first last) (putFrame o s))) := by
  have hps : ps.length < 2 ^ 16 := by
    rw [List.length_append] at h
    exact lt_of_le_capOf (Nat.le_trans (Nat.le_add_right ..) h)
  have hcount : (succeed (storeRaw 0 ps (putFrame o s))).rawCount.toNat = ps.length := by
    rw [succeed_rawCount, storeRaw_rawCount, Nat.zero_add]
    exact Nat.mod_eq_of_lt hps
  rw [← storeRaw_storeRaw_append _ _ hps]
  refine exec_encodeRepeat_of_le ?_
  rw [hcount, ← List.length_append]
  exact h

/-- The ENCODE_REPEATs of a loop, one after the other. -/
theorem execAll_encodeRepeats (o : Frame) (first last : Nat → Bool) (l : List Nat) (ps : List Pulse) (s : State)
    (h : (ps ++ l.flatMap fun i => encodeRepeat o (first i) (last i)).length ≤ capOf s) :
    execAll (l.map fun i => .encodeRepeat (first i) (last i)) (succeed (storeRaw 0 ps (putFrame o s)))
      = .next (succeed (storeRaw 0 (ps ++ l.flatMap fun i => encodeRepeat o (first i) (last i)) (putFrame o s))) := by
  induction l generalizing ps with
  | nil => simp [execAll]
  | cons i l ih =>
    rw [List.flatMap_cons, ← List.append_assoc] at h ⊢
    have hfits : (ps ++ encodeRepeat o (first i) (last i)).length ≤ capOf s := by
      rw [List.length_append] at h
      exact Nat.le_trans (Nat.le_add_right ..) h
    rw [List.map_cons, execAll_cons_of_next (exec_encodeRepeat_appends hfits), ih _ h]

/-- The three operations before the repeats: FRAME is the obfuscated built frame, and RAW is empty. -/
theorem execAll_before_repeats {s : State} (hv : validCmd s.cmd = true) :
    execAll [.buildFrame, .obfuscate, .clearRaw] s
      = .next (succeed (storeRaw 0 [] (putFrame (obfuscate (buildFrame s.cmd s.rc s.addr)) s))) := by
  rw [execAll_cons_of_next (exec_buildFrame_of_valid hv), execAll_cons_of_next (exec_obfuscate _),
    execAll_cons_of_next (exec_clearRaw _)]
  simp [execAll, storeRaw, storeAt, emptyRaw, putFrame, succeed, setErr, clearPending]

/-- CONSOLIDATE after the repeats of a transmission hands off what BUILD_TRANSMISSION does (R195, R214). -/
theorem exec_consolidate_repeatsOf {o : Frame} {n : Nat} {s : State} (hs : s.handed = false)
    (h : (repeatsOf o n).length ≤ capOf s) :
    exec .consolidate (succeed (storeRaw 0 (repeatsOf o n) (putFrame o s)))
      = .next (succeed (setHanded true (storeOut (consolidate (repeatsOf o n))
          (storeRaw 0 (repeatsOf o n) (putFrame o s))))) := by
  set u := succeed (storeRaw 0 (repeatsOf o n) (putFrame o s))
  have hu : u.handed = false := hs
  have hlist : rawList u = repeatsOf o n := rawList_storeRaw_repeatsOf o n (lt_of_le_capOf h)
  rw [exec_consolidate_of_le hu (by rw [hlist]; exact (consolidate_length_le _).trans h), hlist]
  rfl

/-- Settles O27: both paths end with the repeats in RAW and their consolidation handed off in OUT. -/
theorem decomposedPathAgreesWithBuildTransmission : Obligations.DecomposedPathAgreesWithBuildTransmission := by
  unfold Obligations.DecomposedPathAgreesWithBuildTransmission
  intro s hs hv hn hmax
  set o := obfuscate (buildFrame s.cmd s.rc s.addr) with ho
  set n := s.repeats.toNat
  have hn0 : n ≠ 0 := Nat.ne_of_gt hn
  have hraw : txRawLen n ≤ capOf s := (txRawLen_le_iff hn _).mpr hmax
  have hfits : (repeatsOf o n).length ≤ capOf s := repeatsOf_length hn0 ▸ hraw
  have hloop := execAll_encodeRepeats o (· == 0) (· == n - 1) (List.range n) [] s hfits
  rw [List.nil_append] at hloop
  refine ⟨_, exec_buildTransmission_of_ok hs (buildTransmission_of_le hv hn0 hraw), rfl, ?_⟩
  rw [decomposed, List.append_assoc, execAll_append_of_next (execAll_before_repeats hv), execAll_append_of_next hloop]
  exact execAll_cons_of_next (exec_consolidate_repeatsOf hs hfits) []

end Sys2Proof.Machine
end

section
/-! SUPPORT. The register map, which accesses are bus errors, and what an access does (R23, R60 to R68, R248). -/

namespace Sys2Proof.Machine

/-- A register found at an offset stands there, an entry below the capacity (R23, R35, R36). -/
theorem regAt_eq_some {cap offset : Nat} {r : Reg} (h : regAt cap offset = some r) :
    r.offset = offset ∧ (∀ j, r = .raw j → j < cap) ∧ ∀ j, r = .out j → j < cap := by
  unfold regAt at h
  split_ifs at h with h4 hraw hout
  · obtain rfl := Option.some_inj.mp h
    simp [Reg.offset]
    omega
  · obtain rfl := Option.some_inj.mp h
    simp [Reg.offset]
    omega
  · split at h <;> cases h <;> simp [Reg.offset]

/-- Every register outside the buffers is found at its offset, whatever the capacity. -/
theorem regAt_offset {r : Reg} (cap : Nat) (hraw : ∀ j, r ≠ .raw j) (hout : ∀ j, r ≠ .out j) :
    regAt cap r.offset = some r := by
  cases r
  case raw j => exact absurd rfl (hraw j)
  case out j => exact absurd rfl (hout j)
  all_goals simp [regAt, Reg.offset]

theorem regAt_raw {cap j : Nat} (hj : j < cap) : regAt cap (Reg.offset (.raw j)) = some (.raw j) := by
  unfold regAt
  rw [Reg.offset, if_neg (by omega), if_pos (by omega)]
  simp

/-- An OUT entry is found past the RAW window, which a legal build does not exceed (R7). -/
theorem regAt_out {cap j : Nat} (hcap : cap ≤ 1024) (hj : j < cap) :
    regAt cap (Reg.offset (.out j)) = some (.out j) := by
  unfold regAt
  rw [Reg.offset, if_neg (by omega), if_neg (by omega), if_pos (by omega)]
  simp

/-- Where no register is found (R23). -/
theorem regAt_eq_none_iff {cap : Nat} (hcap : cap ≤ 1024) (offset : Nat) : regAt cap offset = none ↔
    offset % 4 ≠ 0 ∨ (0x02C ≤ offset ∧ offset < 0x1000) ∨ (0x1000 + 4 * cap ≤ offset ∧ offset < 0x2000)
      ∨ 0x2000 + 4 * cap ≤ offset := by
  unfold regAt
  split_ifs with h4 hraw hout
  · exact iff_of_true rfl (.inl h4)
  · exact iff_of_false nofun (by omega)
  · exact iff_of_false nofun (by omega)
  · split
    case h_12 =>
      simp only [imp_false] at *
      exact iff_of_true trivial (by omega)
    all_goals exact iff_of_false nofun (by omega)

/-- Settles O33: `regAt` finds exactly the registers at their offsets. -/
theorem registerMapIsTheTable : Obligations.RegisterMapIsTheTable := by
  unfold Obligations.RegisterMapIsTheTable
  refine fun cap offset hcap => ⟨fun r => ⟨regAt_eq_some, ?found⟩, regAt_eq_none_iff hcap offset⟩
  case found =>
    rintro ⟨rfl, hraw, hout⟩
    cases r
    case raw j => exact regAt_raw (hraw j rfl)
    case out j => exact regAt_out hcap (hout j rfl)
    all_goals exact regAt_offset cap nofun nofun

/-- The access column of R23: may an access reach the register? -/
def BusOp.allows (op : BusOp) (r : Reg) : Bool :=
  match op with
  | .read => r.readable
  | .write _ => r.writable

theorem readable_eq_false_iff (r : Reg) : r.readable = false ↔ r.offset = 0x000 := by
  cases r <;> simp [Reg.readable, Reg.offset]

theorem writable_eq_false_iff (r : Reg) : r.writable = false ↔
    r.offset = 0x004 ∨ r.offset = 0x018 ∨ r.offset = 0x01C ∨ 0x028 ≤ r.offset := by
  cases r <;> simp [Reg.writable, Reg.offset]
  all_goals omega

/-- Which registers an access may not reach, by the offset (R23, R63). -/
theorem allows_eq_false_iff (op : BusOp) (r : Reg) : op.allows r = false ↔
    (op = .read ∧ r.offset = 0x000)
      ∨ ((∃ v, op = .write v) ∧ (r.offset = 0x004 ∨ r.offset = 0x018 ∨ r.offset = 0x01C ∨ 0x028 ≤ r.offset)) := by
  cases op with
  | read => simp [BusOp.allows, readable_eq_false_iff]
  | write v => simp [BusOp.allows, writable_eq_false_iff]

/-- An access of the wrong width reaches no register (R63). -/
theorem busTarget_of_width {a : Access} (s : State) (hw : a.width ≠ .w32) : busTarget a s = .error .width := if_pos hw

/-- An access where no register is found (R63). -/
theorem busTarget_of_none {a : Access} {s : State} (hr : regAt (capOf s) a.offset = none) :
    ∃ c, busTarget a s = .error c := by
  simp only [busTarget, hr]
  split_ifs
  all_goals exact ⟨_, rfl⟩

/-- A 32-bit access where a register is found: the access column decides (R63). -/
theorem busTarget_of_some {a : Access} {s : State} {r : Reg} (hw : a.width = .w32)
    (hr : regAt (capOf s) a.offset = some r) : ∃ c, busTarget a s = if a.op.allows r then .ok r else .error c := by
  have h4 : a.offset % 4 = 0 := by
    by_contra h
    rw [show regAt (capOf s) a.offset = none from if_pos h] at hr
    cases hr
  refine ⟨if a.op = .read then .writeOnly else .readOnly, ?_⟩
  simp only [busTarget, hr, hw, h4, ne_eq, not_true_eq_false, if_false]
  cases a.op <;> rfl

/-- Which register an access reaches (R63). -/
theorem busTarget_eq_ok_iff (a : Access) (s : State) (r : Reg) : busTarget a s = .ok r ↔
    a.width = .w32 ∧ regAt (capOf s) a.offset = some r ∧ a.op.allows r = true := by
  by_cases hw : a.width = .w32
  case neg => simp [busTarget_of_width s hw, hw]
  cases hr : regAt (capOf s) a.offset with
  | none =>
    obtain ⟨c, hc⟩ := busTarget_of_none hr
    simp [hc]
  | some q =>
    obtain ⟨c, hc⟩ := busTarget_of_some hw hr
    rw [hc]
    split_ifs with hq
    · constructor
      · rintro ⟨⟩
        exact ⟨hw, rfl, hq⟩
      · rintro ⟨-, ⟨⟩, -⟩
        rfl
    · refine iff_of_false nofun ?_
      rintro ⟨-, ⟨⟩, hq'⟩
      exact hq hq'

/-- Which accesses reach none (R63). -/
theorem busTarget_error_iff (a : Access) (s : State) : (∃ c, busTarget a s = .error c) ↔
    a.width ≠ .w32 ∨ regAt (capOf s) a.offset = none
      ∨ ∃ r, regAt (capOf s) a.offset = some r ∧ a.op.allows r = false := by
  have hnone : (∃ c, busTarget a s = .error c) ↔ ¬ ∃ r, busTarget a s = .ok r := by
    cases busTarget a s <;> simp
  rw [hnone]
  simp only [busTarget_eq_ok_iff]
  cases hr : regAt (capOf s) a.offset <;> simp [imp_iff_not_or]

/-- An access that R63 forbids is the agent's bus error, and nothing else (R248). -/
theorem busAccess_of_error {a : Access} {s : State} {c : BusError} (ho : a.offset < 0x3000)
    (h : busTarget a s = .error c) : busAccess a s = .next (busError a.agent c s) := by
  simp [busAccess, windowSize, ho, h]

/-- A read that R63 allows (R66). -/
theorem busAccess_of_read {a : Access} {s : State} {r : Reg} (ho : a.offset < 0x3000) (hop : a.op = .read)
    (h : busTarget a s = .ok r) : busAccess a s = .next (readReg a.agent a.offset r s) := by
  simp [busAccess, windowSize, ho, hop, h]

/-- A write that R63 allows, while no operation is in flight (R67). -/
theorem busAccess_of_write_idle {a : Access} {s : State} {r : Reg} {v : Word} (ho : a.offset < 0x3000)
    (hop : a.op = .write v) (h : busTarget a s = .ok r) (hp : s.pending = none) :
    busAccess a s = .next (writeReg r v s) := by
  simp [busAccess, windowSize, ho, hop, h, hp]

/-- A write that R63 allows, while an operation is in flight (R68). -/
theorem busAccess_of_write_busy {a : Access} {s : State} {r : Reg} {v : Word} (ho : a.offset < 0x3000)
    (hop : a.op = .write v) (h : busTarget a s = .ok r) (hp : s.pending ≠ none) :
    busAccess a s = .refused (.writeWhileBusy a.agent a.offset) := by
  simp [busAccess, windowSize, ho, hop, h, Option.isSome_iff_ne_none, hp]

/-- An access outside the window (R60). -/
theorem busAccess_of_outside {a : Access} (s : State) (ho : 0x3000 ≤ a.offset) :
    busAccess a s = .fault (.outsideWindow a.agent a.offset) := by
  simp [busAccess, windowSize, Nat.not_lt.mpr ho]

/-- A bus error leaves the block alone (R248). -/
@[simp] theorem blockOf_busError (agent : Agent) (c : BusError) (s : State) : blockOf (busError agent c s) = blockOf s := by
  cases agent <;> rfl

/-- Settles O34: an access is a bus error by its width, because no register is found, or because the register found may not
be accessed that way. -/
theorem busErrorsAreExactly : Obligations.BusErrorsAreExactly := by
  unfold Obligations.BusErrorsAreExactly
  refine fun a s hcap ho => ⟨?which, ?effect⟩
  case which =>
    have hnone := regAt_eq_none_iff hcap a.offset
    rw [busTarget_error_iff]
    cases hr : regAt (capOf s) a.offset with
    | none =>
      refine iff_of_true (.inr (.inl rfl)) (.inr ?_)
      rcases hnone.mp hr with h | h | h | h <;> simp only [h, true_or, or_true, ne_eq, not_false_eq_true, true_and]
    | some r =>
      have hmapped := mt hnone.mpr (by simp [hr])
      obtain ⟨hoff, -⟩ := regAt_eq_some hr
      have hallows := allows_eq_false_iff a.op r
      rw [hoff] at hallows
      rw [not_or, not_or, not_or] at hmapped
      obtain ⟨haligned, hlow, hraw, hout⟩ := hmapped
      rw [or_iff_right haligned, or_iff_right hlow, or_iff_right hraw, or_iff_right hout]
      simp only [Option.some_inj, exists_eq_left', hallows, reduceCtorEq, false_or]
  case effect =>
    rintro ⟨c, hc⟩
    refine ⟨_, busAccess_of_error ho hc, blockOf_busError .., ?_⟩
    cases a.agent <;> exact ⟨rfl, rfl⟩

/-- Settles O36: the write is refused. -/
theorem writeWhileBusyIsRefused : Obligations.WriteWhileBusyIsRefused := by
  unfold Obligations.WriteWhileBusyIsRefused
  exact fun _ _ _ _ hp ho hop h => busAccess_of_write_busy ho hop h hp

end Sys2Proof.Machine
end

section
/-! SUPPORT. The register words by their bits, what a read returns, and what a write stores (R23 to R36, R62, R66 to R69). -/

namespace Sys2Proof.Machine

/-- STATUS by its bits (R25). -/
theorem statusWord_getLsbD (s : State) (k : Nat) : (statusWord s).getLsbD k =
    if k = 0 then s.pending.isSome else if k = 1 then s.handed else decide (4 ≤ k) && s.err.getLsbD (k - 4) := by
  have herr : 4 ≤ k - 4 → s.err.getLsbD (k - 4) = false := BitVec.getLsbD_of_ge _ _
  simp only [statusWord, busy, BitVec.truncate_eq_setWidth, BitVec.getLsbD_or, BitVec.getLsbD_shiftLeft,
    BitVec.getLsbD_setWidth, BitVec.getLsbD_ofBool]
  grind

/-- FRAME0 by its bits, a byte in each lane (R33). -/
theorem frame0Word_getLsbD (f : Frame) (k : Nat) : (frame0Word f).getLsbD k =
    if k < 8 then f.b0.getLsbD k else if k < 16 then f.b1.getLsbD (k - 8)
    else if k < 24 then f.b2.getLsbD (k - 16) else f.b3.getLsbD (k - 24) := by
  have hbyte (b : Byte) (i : Nat) (h : 8 ≤ i) : b.getLsbD i = false := BitVec.getLsbD_of_ge _ _ h
  simp only [frame0Word, BitVec.truncate_eq_setWidth, BitVec.getLsbD_or, BitVec.getLsbD_shiftLeft,
    BitVec.getLsbD_setWidth]
  grind

/-- FRAME1 by its bits, the top lane 0 (R33). -/
theorem frame1Word_getLsbD (f : Frame) (k : Nat) : (frame1Word f).getLsbD k =
    if k < 8 then f.b4.getLsbD k else if k < 16 then f.b5.getLsbD (k - 8) else f.b6.getLsbD (k - 16) := by
  have hbyte (b : Byte) (i : Nat) (h : 8 ≤ i) : b.getLsbD i = false := BitVec.getLsbD_of_ge _ _ h
  simp only [frame1Word, BitVec.truncate_eq_setWidth, BitVec.getLsbD_or, BitVec.getLsbD_shiftLeft,
    BitVec.getLsbD_setWidth]
  grind

/-- A field is a value when their bits are. -/
theorem extractLsb'_eq_of_bits {w : Word} {start len : Nat} {x : BitVec len}
    (h : ∀ k < len, w.getLsbD (start + k) = x.getLsbD k) : w.extractLsb' start len = x := by
  refine BitVec.eq_of_getLsbD_eq fun k hk => ?_
  rw [BitVec.getLsbD_extractLsb', h k hk, decide_eq_true hk, Bool.true_and]

theorem frame0Word_lanes (f : Frame) : (frame0Word f).extractLsb' 0 8 = f.b0 ∧ (frame0Word f).extractLsb' 8 8 = f.b1
    ∧ (frame0Word f).extractLsb' 16 8 = f.b2 ∧ (frame0Word f).extractLsb' 24 8 = f.b3 := by
  refine ⟨?_, ?_, ?_, ?_⟩ <;> refine extractLsb'_eq_of_bits fun k hk => ?_ <;> rw [frame0Word_getLsbD] <;> grind

theorem frame1Word_lanes (f : Frame) : (frame1Word f).extractLsb' 0 8 = f.b4 ∧ (frame1Word f).extractLsb' 8 8 = f.b5
    ∧ (frame1Word f).extractLsb' 16 8 = f.b6 ∧ (frame1Word f).extractLsb' 24 8 = 0 := by
  have hbyte (k : Nat) (h : 8 ≤ k) : f.b6.getLsbD k = false := BitVec.getLsbD_of_ge _ _ h
  refine ⟨?_, ?_, ?_, ?_⟩ <;> refine extractLsb'_eq_of_bits fun k hk => ?_ <;> rw [frame1Word_getLsbD] <;> grind

section
variable {s : State}

/-- A register of the list of R68 reads what it holds, busy or idle. -/
theorem readValue_of_defined {r : Reg} (h : definedWhileBusy r s = true) : readValue r s = idleValue r s := by
  simp [readValue, h]

/-- Any other register reads as unspecified while an operation is in flight (R68). -/
theorem readValue_of_busy {r : Reg} (hp : s.pending ≠ none) (h : definedWhileBusy r s = false) :
    readValue r s = none := by
  simp [readValue, h, Option.isSome_iff_ne_none, hp]

/-- An entry below the count is the word held (R35, R36). -/
theorem entryAt_of_lt {buf : List Word} {count : BitVec 16} {j : Nat} (h : j < count.toNat) :
    entryAt buf count j = buf[j]? := if_pos h

/-- An entry below the count has been written. -/
theorem exists_entryAt {buf : List Word} {count : BitVec 16} {j : Nat} (hlen : count.toNat ≤ buf.length)
    (h : j < count.toNat) : ∃ w, buf[j]? = some w ∧ entryAt buf count j = some w := by
  have hget := List.getElem?_eq_getElem (Nat.lt_of_lt_of_le h hlen)
  exact ⟨_, hget, (entryAt_of_lt h).trans hget⟩

end

@[simp] theorem readValue_status (s : State) : readValue .status s = some (statusWord s) := readValue_of_defined rfl

/-- Settles O39: the bits of `statusWord`. -/
theorem statusRegisterLayout : Obligations.StatusRegisterLayout := by
  unfold Obligations.StatusRegisterLayout
  have hwide (e : Nibble) (k : Nat) (h : 4 ≤ k) : e.getLsbD k = false := BitVec.getLsbD_of_ge _ _ h
  refine fun s => ⟨readValue_status s, statusWord_getLsbD s 0, statusWord_getLsbD s 1, ?_, ?_, ?_⟩ <;>
    refine extractLsb'_eq_of_bits fun k hk => ?_ <;> rw [statusWord_getLsbD] <;> grind

/-- Settles O40: the registers of the list of R68 read what they hold, the others are unspecified. -/
theorem readsWhileBusy : Obligations.ReadsWhileBusy := by
  unfold Obligations.ReadsWhileBusy
  intro s hp
  have hdefined (r : Reg) : definedWhileBusy r s = true → readValue r s = idleValue r s := readValue_of_defined
  have hfree (r : Reg) : definedWhileBusy r s = false → readValue r s = none := readValue_of_busy hp
  exact ⟨hdefined .status rfl, hdefined .capacity rfl, hdefined .cmd rfl, hdefined .repeats rfl, hdefined .rc rfl,
    hdefined .addr rfl,
    fun hs => ⟨hdefined .outCount hs, fun j hj => (hdefined (.out j) hs).trans (entryAt_of_lt hj)⟩,
    fun j hj => readValue_out_of_count_le hj, hfree .frame0 rfl, hfree .frame1 rfl, hfree .rawCount rfl,
    fun j => hfree (.raw j) rfl, fun hs => ⟨hfree .outCount hs, fun j => hfree (.out j) hs⟩⟩

/-- Settles O41: an idle block reads an entry below its count, and no entry at or above it is specified. -/
theorem entriesAboveTheCountAreUnspecified : Obligations.EntriesAboveTheCountAreUnspecified := by
  unfold Obligations.EntriesAboveTheCountAreUnspecified
  refine fun s j => ⟨fun hcounts hp => ?below, readValue_raw_of_count_le, readValue_out_of_count_le⟩
  case below =>
    obtain ⟨hraw, -, hout, -⟩ := hcounts
    rw [readValue_of_idle hp, readValue_of_idle hp]
    exact ⟨exists_entryAt hraw, exists_entryAt hout⟩

/-- Settles O55: an idle block reads what each register holds, the frame bytes in their lanes. -/
theorem readsWhileIdle : Obligations.ReadsWhileIdle := by
  unfold Obligations.ReadsWhileIdle
  intro s hp
  simp only [readValue_of_idle hp]
  exact ⟨rfl, rfl, rfl, rfl, rfl, rfl, rfl, rfl, ⟨_, rfl, frame0Word_lanes s.frame⟩, ⟨_, rfl, frame1Word_lanes s.frame⟩⟩

/-- A read whose value is specified (R66). -/
theorem readReg_of_some {agent : Agent} {offset : Nat} {r : Reg} {s : State} {v : Word} (h : readValue r s = some v) :
    readReg agent offset r s = recordRead agent offset v s := by
  rw [readReg, h]

/-- A read whose value is unspecified: a free draw (R43, R68). -/
theorem readReg_of_none {agent : Agent} {offset : Nat} {r : Reg} {s : State} (h : readValue r s = none) :
    readReg agent offset r s = nextDraw (recordRead agent offset (Config.freeWord s.draws) s) := by
  rw [readReg, h]

@[simp] theorem blockOf_recordRead (agent : Agent) (offset : Nat) (v : Word) (s : State) :
    blockOf (recordRead agent offset v s) = blockOf s := by
  cases agent <;> rfl

@[simp] theorem blockOf_nextDraw (s : State) : blockOf (nextDraw s) = blockOf s := rfl

/-- Settles O38: the read records its value, or a free draw, for the agent, and does nothing else. -/
theorem readReturnsItsValueAndChangesNothing : Obligations.ReadReturnsItsValueAndChangesNothing := by
  unfold Obligations.ReadReturnsItsValueAndChangesNothing
  intro a s r ho hop hr
  rw [busAccess_of_read ho hop hr]
  cases hv : readValue r s with
  | some v =>
    rw [readReg_of_some hv]
    refine ⟨_, v, rfl, by simp, by simp, by simp, by simp, nofun, ?_⟩
    cases a.agent <;> exact ⟨rfl, rfl⟩
  | none =>
    rw [readReg_of_none hv]
    refine ⟨_, _, rfl, by simp, by simp, by simp, nofun, fun _ => ⟨rfl, by simp⟩, ?_⟩
    cases a.agent <;> exact ⟨rfl, rfl⟩

/-- Settles O53: OUT[j] is mapped in a legal build, and defined while HANDED = 1. -/
theorem driverReadsTheHandedOffSequence : Obligations.DriverReadsTheHandedOffSequence := by
  unfold Obligations.DriverReadsTheHandedOffSequence
  intro s j hbuild hcounts hs hj
  obtain ⟨-, hcap⟩ := hbuild
  obtain ⟨-, -, hcount, hlen⟩ := hcounts
  have hj' : j < capOf s := by omega
  obtain ⟨w, hw, hentry⟩ := exists_entryAt hcount hj
  have hread : readValue (.out j) s = some w := (readValue_of_defined (r := .out j) hs).trans hentry
  have htarget : busTarget { agent := .driver, width := .w32, offset := 0x2000 + 4 * j, op := .read } s = .ok (.out j) :=
    (busTarget_eq_ok_iff ..).mpr ⟨rfl, regAt_out hcap hj', rfl⟩
  have hwindow : 0x2000 + 4 * j < 0x3000 := by
    have : Config.maxCap = 1024 := rfl
    omega
  rw [busAccess_of_read hwindow rfl htarget, readReg_of_some hread]
  exact ⟨_, w, rfl, hw, rfl, rfl, rfl⟩

/-- A 32-bit write of a writable register while idle, by either agent (R67). -/
theorem busAccess_write_writable {r : Reg} {s : State} (hr : r.writable = true) (hp : s.pending = none) (agent : Agent)
    (v : Word) :
    busAccess { agent := agent, width := .w32, offset := r.offset, op := .write v } s = .next (writeReg r v s) := by
  have hwindow : r.offset < 0x3000 := by
    by_contra h
    have hfalse := (writable_eq_false_iff r).mpr (by omega)
    rw [hr] at hfalse
    cases hfalse
  have hfound : regAt (capOf s) r.offset = some r :=
    regAt_offset _ (fun j h => by rw [h] at hr; cases hr) (fun j h => by rw [h] at hr; cases hr)
  exact busAccess_of_write_idle hwindow rfl ((busTarget_eq_ok_iff ..).mpr ⟨rfl, hfound, hr⟩) hp

/-- A request is captured as the fields of the word (R38). -/
theorem capture_eq (w : Word) : capture w =
    { op := w.extractLsb' 0 4, first := w.getLsbD 8, last := w.getLsbD 9
      rsvd := decide (w.extractLsb' 4 4 ≠ 0 ∨ w.extractLsb' 10 22 ≠ 0) } := by
  have hrsvd : (capture w).rsvd = decide (w.extractLsb' 4 4 ≠ 0 ∨ w.extractLsb' 10 22 ≠ 0) := by
    rw [Bool.eq_iff_iff, decide_eq_true_eq, capture_rsvd_iff, reserved_iff]
  rw [← hrsvd]
  rfl

/-- Settles O7: the write of OPREQ issues. -/
theorem opreqWriteIssuesAnOperation : Obligations.OpreqWriteIssuesAnOperation := by
  unfold Obligations.OpreqWriteIssuesAnOperation
  intro s agent w hp
  refine ⟨issue w s, busAccess_write_writable (r := .opreq) rfl hp agent w, ?_, ?_, rfl, rfl⟩
  · rw [← capture_eq]
    rfl
  · rw [issue_wait]
    omega

/-- The low bits of a word, extended, are the word masked. -/
theorem zeroExtend_extractLsb'_zero (v mask : Word) (n : Nat) (hmask : ∀ k < 32, mask.getLsbD k = decide (k < n)) :
    (v.extractLsb' 0 n).zeroExtend 32 = v &&& mask := by
  refine BitVec.eq_of_getLsbD_eq fun k hk => ?_
  rw [BitVec.getLsbD_and, hmask k hk]
  simp [hk, Bool.and_comm]

/-- FRAME0 reads the four lanes written (R33, R64). -/
theorem frame0Word_of_lanes (f : Frame) (v : Word) : frame0Word { f with
    b0 := v.extractLsb' 0 8, b1 := v.extractLsb' 8 8, b2 := v.extractLsb' 16 8, b3 := v.extractLsb' 24 8 } = v := by
  refine BitVec.eq_of_getLsbD_eq fun k hk => ?_
  rw [frame0Word_getLsbD]
  simp only [BitVec.getLsbD_extractLsb']
  grind

/-- FRAME1 reads the three lanes written, the reserved one as 0 (R33, R64). -/
theorem frame1Word_of_lanes (f : Frame) (v : Word) : frame1Word { f with
    b4 := v.extractLsb' 0 8, b5 := v.extractLsb' 8 8, b6 := v.extractLsb' 16 8 } = v &&& 0x00FFFFFF := by
  have hmask : ∀ k < 32, (0x00FFFFFF : Word).getLsbD k = decide (k < 24) := by decide
  refine BitVec.eq_of_getLsbD_eq fun k hk => ?_
  rw [frame1Word_getLsbD, BitVec.getLsbD_and, hmask k hk]
  simp only [BitVec.getLsbD_extractLsb']
  grind

/-- Settles O37: the write stores the register's bits, and the idle block reads them back. -/
theorem registerWriteThenRead : Obligations.RegisterWriteThenRead := by
  unfold Obligations.RegisterWriteThenRead
  intro agent s v hp wr
  have hwr {r : Reg} (hr : r.writable = true) : wr r.offset = .next (writeReg r v s) :=
    busAccess_write_writable hr hp agent v
  have hread (r : Reg) (hr : (writeReg r v s).pending = s.pending) (q : Reg) :
      readValue q (writeReg r v s) = idleValue q (writeReg r v s) := readValue_of_idle (hr.trans hp) q
  refine ⟨⟨_, hwr (r := .cmd) rfl, rfl, ?cmd⟩, ⟨_, hwr (r := .repeats) rfl, rfl, ?repeats⟩,
    ⟨_, hwr (r := .rc) rfl, rfl, ?rc⟩, ⟨_, hwr (r := .addr) rfl, rfl, hread .addr rfl .addr⟩,
    ⟨_, hwr (r := .frame0) rfl, rfl, ?frame0, ?frame0other⟩, ⟨_, hwr (r := .frame1) rfl, rfl, ?frame1, ?frame1other⟩⟩
  case cmd => exact (hread .cmd rfl .cmd).trans (congrArg some (zeroExtend_extractLsb'_zero v _ 4 (by decide)))
  case repeats =>
    exact (hread .repeats rfl .repeats).trans (congrArg some (zeroExtend_extractLsb'_zero v _ 8 (by decide)))
  case rc => exact (hread .rc rfl .rc).trans (congrArg some (zeroExtend_extractLsb'_zero v _ 16 (by decide)))
  case frame0 => exact (hread .frame0 rfl .frame0).trans (congrArg some (frame0Word_of_lanes s.frame v))
  case frame1 => exact (hread .frame1 rfl .frame1).trans (congrArg some (frame1Word_of_lanes s.frame v))
  case frame0other => exact (hread .frame0 rfl .frame1).trans (readValue_of_idle hp .frame1).symm
  case frame1other => exact (hread .frame1 rfl .frame0).trans (readValue_of_idle hp .frame0).symm

/-- Settles O54: BASE is a multiple of 0x4000, and the window is shorter than that. -/
theorem windowIsFoundFromTheBusAddress : Obligations.WindowIsFoundFromTheBusAddress := by
  unfold Obligations.WindowIsFoundFromTheBusAddress
  have hbase : Config.base % 0x4000 = 0 := Nat.mul_mod_right ..
  refine ⟨hbase, fun off hoff => ?found, fun address off h => ?offset⟩
  case found =>
    have hin : Config.base ≤ busAddress off ∧ busAddress off < Config.base + windowSize :=
      ⟨Nat.le_add_right .., Nat.add_lt_add_left hoff _⟩
    rw [windowOffset, if_pos hin, busAddress, Nat.add_sub_cancel_left]
  case offset =>
    have hsize : windowSize = 0x3000 := rfl
    rw [windowOffset] at h
    split_ifs at h with hin
    rw [Option.some_inj] at h
    omega

end Sys2Proof.Machine
end

section
/-! SUPPORT. What operations and steps leave alone: the writes column of R94, the agents' faults, the parameter registers, and
the invariants of ERR and LATENCY. -/

namespace Sys2Proof.Machine

/-- With HANDED = 0 and a result that does not fit, CONSOLIDATE only reports CapacityExceeded (R196). -/
theorem exec_consolidate_of_lt {s : State} (hs : s.handed = false)
    (h : capOf s < (consolidate (rawList s)).length) :
    exec .consolidate s = .next (raiseError .capacityExceeded s) := by
  simp [exec, execConsolidate, hs, h]

/-- No operation stops. -/
theorem exec_answers (i : Instr) (s : State) : ∃ t, exec i s = .next t := by
  cases i
  case buildFrame =>
    by_cases hv : validCmd s.cmd = true
    · exact ⟨_, exec_buildFrame_of_valid hv⟩
    · exact ⟨_, exec_buildFrame_of_invalid hv⟩
  case encodeRepeat first last =>
    rcases Nat.lt_or_ge (capOf s) (s.rawCount.toNat + (encodeRepeat s.frame first last).length) with h | h
    · exact ⟨_, exec_encodeRepeat_of_lt h⟩
    · exact ⟨_, exec_encodeRepeat_of_le h⟩
  case consolidate =>
    cases hs : s.handed with
    | true => exact ⟨_, exec_consolidate_of_handed hs⟩
    | false =>
      rcases Nat.lt_or_ge (capOf s) (consolidate (rawList s)).length with h | h
      · exact ⟨_, exec_consolidate_of_lt hs h⟩
      · exact ⟨_, exec_consolidate_of_le hs h⟩
  case buildTransmission =>
    obtain ⟨t, ht, -⟩ := exec_buildTransmission_err s
    exact ⟨t, ht⟩
  case obfuscate => exact ⟨_, exec_obfuscate s⟩
  case deobfuscate => exact ⟨_, exec_deobfuscate s⟩
  case clearRaw => exact ⟨_, exec_clearRaw s⟩
  case release => exact ⟨_, exec_release s⟩

/-- No completion stops. -/
theorem complete_answers (r : Request) (s : State) : ∃ t, Machine.complete r s = .next t := by
  cases hd : decode r with
  | ok i =>
    rw [complete_of_decode hd]
    exact exec_answers i s
  | error c => exact ⟨raiseError .illegalOp s, by simp [Machine.complete, hd]⟩

/-- The writes of each operation, by its row of the table (R94). -/
theorem exec_writes {i : Instr} {s t : State} (h : exec i s = .next t) :
    t = { s with
        frame := t.frame, raw := t.raw, rawCount := t.rawCount, out := t.out, outCount := t.outCount
        handed := t.handed, err := t.err, pending := none }
    ∧ (t.frame = s.frame ∨ i = .buildFrame ∨ i = .obfuscate ∨ i = .deobfuscate ∨ i = .buildTransmission)
    ∧ (t.raw = s.raw ∨ (∃ f l, i = .encodeRepeat f l) ∨ i = .buildTransmission)
    ∧ (t.rawCount = s.rawCount ∨ i = .clearRaw ∨ (∃ f l, i = .encodeRepeat f l) ∨ i = .buildTransmission)
    ∧ ((t.out = s.out ∧ t.outCount = s.outCount) ∨ i = .consolidate ∨ i = .buildTransmission)
    ∧ (t.handed = s.handed ∨ i = .consolidate ∨ i = .buildTransmission ∨ i = .release) := by
  cases i
  case buildFrame => rcases execBuildFrame_cases h with ⟨-, rfl⟩ | ⟨-, rfl⟩ <;> exact ⟨rfl, by simp⟩
  case encodeRepeat => rcases execEncodeRepeat_cases h with ⟨-, rfl⟩ | ⟨-, rfl⟩ <;> exact ⟨rfl, by simp⟩
  case consolidate =>
    rcases execConsolidate_cases h with ⟨-, rfl⟩ | ⟨-, -, rfl⟩ | ⟨-, -, rfl⟩ <;> exact ⟨rfl, by simp⟩
  case buildTransmission =>
    rcases execBuildTransmission_cases h with ⟨-, rfl⟩ | ⟨e, -, -, rfl⟩ | ⟨o, raw, out, -, -, rfl⟩ <;>
      exact ⟨rfl, by simp⟩
  all_goals cases h; exact ⟨rfl, by simp⟩

/-- Settles O32: every operation answers, and writes what its row names. -/
theorem operationsWriteOnlyTheirRegisters : Obligations.OperationsWriteOnlyTheirRegisters := by
  unfold Obligations.OperationsWriteOnlyTheirRegisters
  intro i s
  obtain ⟨t, ht⟩ := exec_answers i s
  exact ⟨t, ht, exec_writes ht⟩

/-- A completion leaves the parameter registers, CAPACITY and the fields of the outside (R93, R94). -/
theorem complete_frame {r : Request} {s t : State} (h : Machine.complete r s = .next t) :
    t = { s with
        frame := t.frame, raw := t.raw, rawCount := t.rawCount, out := t.out, outCount := t.outCount
        handed := t.handed, err := t.err, pending := none } := by
  rcases complete_cases h with ⟨c, -, rfl⟩ | ⟨i, -, hx⟩
  · rfl
  · exact (exec_writes hx).1

/-- Everything a step can do: complete the ready request, or take the next input, of which `u` is the state with LATENCY
counted down and `t` the result (R40, R72). -/
theorem step_inputs {s t : State} (h : step s = .next t) :
    (∃ r, s.pending = some r ∧ s.wait = 0 ∧ Machine.complete r s = .next t)
      ∨ (s.pending = none ∨ s.wait ≠ 0) ∧ ∃ u, (u = s ∨ u = tick s) ∧ (s.pending = none → u = s) ∧ inputStep u = .next t := by
  rcases step_cases h with h | ⟨r, hp, hw, h⟩ | ⟨hp, h⟩
  · exact .inl h
  · exact .inr ⟨.inr hw, tick s, .inr rfl, fun hn => by simp [hp] at hn, h⟩
  · exact .inr ⟨.inl hp, s, .inl rfl, fun _ => rfl, h⟩

/-- What no read, bus error or passing step changes: the parameter registers and what is in flight. -/
structure SameCommand (s t : State) : Prop where
  cmd : t.cmd = s.cmd
  repeats : t.repeats = s.repeats
  rc : t.rc = s.rc
  addr : t.addr = s.addr
  pending : t.pending = s.pending
  wait : t.wait = s.wait

theorem SameCommand.refl (s : State) : SameCommand s s := ⟨rfl, rfl, rfl, rfl, rfl, rfl⟩

theorem sameCommand_of_dropInput {s t : State} (h : SameCommand (dropInput s) t) : SameCommand s t :=
  ⟨h.cmd, h.repeats, h.rc, h.addr, h.pending, h.wait⟩

theorem readReg_sameCommand (agent : Agent) (offset : Nat) (r : Reg) (s : State) :
    SameCommand s (readReg agent offset r s) := by
  unfold readReg
  split <;> constructor <;> simp

theorem busError_sameCommand (agent : Agent) (c : BusError) (s : State) : SameCommand s (busError agent c s) := by
  constructor <;> simp

/-- An input changes the parameters and what is in flight only if it is a write to the idle block, or a reset. -/
theorem inputStep_command {s t : State} (h : inputStep s = .next t) :
    SameCommand s t
      ∨ (∃ a r v, s.inputs.head? = some (.access a) ∧ a.op = .write v ∧ s.pending = none ∧ t = writeReg r v (dropInput s))
      ∨ (s.inputs.head? = some .reset ∧ t = resetBlock (dropInput s)) := by
  rcases inputStep_cases h with ⟨-, rfl⟩ | ⟨a, rest, hi, h⟩ | ⟨rest, -, rfl⟩ | ⟨rest, hi, rfl⟩
  · exact .inl (.refl _)
  · rcases busAccess_cases h with ⟨c, -, rfl⟩ | ⟨r, -, -, rfl⟩ | ⟨r, v, -, hop, hb, rfl⟩
    · exact .inl (sameCommand_of_dropInput (busError_sameCommand ..))
    · exact .inl (sameCommand_of_dropInput (readReg_sameCommand ..))
    · refine .inr (.inl ⟨a, r, v, by simp [hi], hop, ?_, rfl⟩)
      simpa [busy] using hb
  · refine .inl ?_
    unfold pollRead
    split
    · exact readReg_sameCommand ..
    · exact sameCommand_of_dropInput (readReg_sameCommand ..)
  · exact .inr (.inr ⟨by simp [hi], rfl⟩)

/-- Settles O52: completions write no parameter, and of the inputs only a write and a reset do. -/
theorem parameterRegistersChangeOnlyByWrites : Obligations.ParameterRegistersChangeOnlyByWrites := by
  unfold Obligations.ParameterRegistersChangeOnlyByWrites
  intro s t h
  refine ⟨?capacity, ?parameters⟩
  case capacity =>
    rcases step_bufferStep h with hb | ⟨u, rfl, hcap⟩
    · exact hb.capacity
    · exact hcap
  case parameters =>
    rcases step_inputs h with ⟨r, -, -, hc⟩ | ⟨hq, u, hu, hidle, h⟩
    · rw [complete_frame hc]
      exact .inr (.inr ⟨rfl, rfl, rfl, rfl⟩)
    have hui : u.inputs = s.inputs := by rcases hu with rfl | rfl <;> rfl
    have hup : u.pending = s.pending := by rcases hu with rfl | rfl <;> rfl
    rcases inputStep_command h with hsame | ⟨a, r, v, hi, hop, hp, -⟩ | ⟨hi, -⟩
    · refine .inr (.inr ?_)
      rcases hu with rfl | rfl <;> exact ⟨hsame.cmd, hsame.repeats, hsame.rc, hsame.addr⟩
    · exact .inl ⟨a, v, hui ▸ hi, hop, hup ▸ hp⟩
    · exact .inr (.inl ⟨hui ▸ hi, hq⟩)

/-- A write issues an operation, or leaves what is in flight alone (R40). -/
theorem writeReg_pending (r : Reg) (v : Word) (s : State) :
    (writeReg r v s).pending ≠ none ∨ ((writeReg r v s).pending = s.pending ∧ (writeReg r v s).wait = s.wait) := by
  cases r
  case opreq => exact .inl nofun
  all_goals exact .inr ⟨rfl, rfl⟩

/-- Settles O56: a completion comes at the end of LATENCY, a reset clears it, and nothing else ends an operation. -/
theorem stepKeepsWaitForPendingOnly : Obligations.StepKeepsWaitForPendingOnly := by
  unfold Obligations.StepKeepsWaitForPendingOnly
  intro s t h hs ht
  rcases step_inputs h with ⟨r, -, hw, hc⟩ | ⟨-, u, hu, hidle, h⟩
  · obtain ⟨-, hwait⟩ := complete_leaves_idle hc
    exact hwait.trans hw
  have hup : u.pending = s.pending := by rcases hu with rfl | rfl <;> rfl
  rcases inputStep_command h with hsame | ⟨a, r, v, -, -, hp, rfl⟩ | ⟨-, rfl⟩
  · have hp : s.pending = none := hup.symm.trans (hsame.pending.symm.trans ht)
    rw [hsame.wait, hidle hp]
    exact hs hp
  · have hp' : s.pending = none := hup.symm.trans hp
    rcases writeReg_pending r v (dropInput u) with hbusy | ⟨-, hw⟩
    · exact absurd ht hbusy
    · rw [hw, dropInput_wait, hidle hp']
      exact hs hp'
  · rfl

/-- The codes of R240 are 0 to 5. -/
theorem ErrCode.code_le (e : ErrCode) : e.code.toNat ≤ 5 := by
  cases e <;> decide

/-- Settles O49: a completion writes a code of R240, and no other step but a reset writes ERR. -/
theorem stepKeepsErrInRange : Obligations.StepKeepsErrInRange := by
  unfold Obligations.StepKeepsErrInRange
  intro s t h hs
  rcases step_results h with ⟨r, -, -, hc⟩ | hsame | ⟨-, -, u, rfl, -⟩
  · rcases complete_raises_or_succeeds hc with ⟨e, rfl⟩ | hok
    · exact e.code_le
    · rw [ErrInRange, hok]
      decide
  · rwa [ErrInRange, hsame.err]
  · exact Nat.zero_le 5

/-- Each agent's fault stays once it is there. -/
def KeepsFaults (s t : State) : Prop :=
  (s.host.fault ≠ none → t.host.fault = s.host.fault) ∧ (s.driver.fault ≠ none → t.driver.fault = s.driver.fault)

theorem keepsFaults_of_eq {s t : State} (hh : t.host.fault = s.host.fault) (hd : t.driver.fault = s.driver.fault) :
    KeepsFaults s t := ⟨fun _ => hh, fun _ => hd⟩

/-- The first cause of a fault is kept (R248). -/
theorem busError_keepsFaults (agent : Agent) (c : BusError) (s : State) : KeepsFaults s (busError agent c s) := by
  cases agent with
  | host =>
    refine ⟨fun h => ?_, fun _ => rfl⟩
    obtain ⟨first, hfirst⟩ := Option.ne_none_iff_exists'.mp h
    simp [hfirst]
  | driver =>
    refine ⟨fun _ => rfl, fun h => ?_⟩
    obtain ⟨first, hfirst⟩ := Option.ne_none_iff_exists'.mp h
    simp [hfirst]

theorem readReg_keepsFaults (agent : Agent) (offset : Nat) (r : Reg) (s : State) :
    KeepsFaults s (readReg agent offset r s) := by
  unfold readReg
  split <;> cases agent <;> exact keepsFaults_of_eq rfl rfl

theorem writeReg_keepsFaults (r : Reg) (v : Word) (s : State) : KeepsFaults s (writeReg r v s) := by
  cases r <;> exact keepsFaults_of_eq rfl rfl

theorem inputStep_keepsFaults {s t : State} (h : inputStep s = .next t) : KeepsFaults s t := by
  rcases inputStep_cases h with ⟨-, rfl⟩ | ⟨a, rest, -, h⟩ | ⟨rest, -, rfl⟩ | ⟨rest, -, rfl⟩
  · exact keepsFaults_of_eq rfl rfl
  · rcases busAccess_cases h with ⟨c, -, rfl⟩ | ⟨r, -, -, rfl⟩ | ⟨r, v, -, -, -, rfl⟩
    · exact busError_keepsFaults _ c (dropInput s)
    · exact readReg_keepsFaults _ _ r (dropInput s)
    · exact writeReg_keepsFaults r v (dropInput s)
  · unfold pollRead
    split
    · exact readReg_keepsFaults ..
    · exact readReg_keepsFaults _ _ _ (dropInput s)
  · exact keepsFaults_of_eq rfl rfl

/-- No step clears or changes a fault (R248). -/
theorem step_keepsFaults {s t : State} (h : step s = .next t) : KeepsFaults s t := by
  rcases step_inputs h with ⟨r, -, -, hc⟩ | ⟨-, u, hu, -, h⟩
  · rw [complete_frame hc]
    exact keepsFaults_of_eq rfl rfl
  · have hk := inputStep_keepsFaults h
    rcases hu with rfl | rfl <;> exact hk

/-- Settles O35: a bus error is the agent's record alone, and no step clears a fault. -/
theorem busErrorOnlyFaultsTheAgent : Obligations.BusErrorOnlyFaultsTheAgent := by
  unfold Obligations.BusErrorOnlyFaultsTheAgent
  refine ⟨fun a s c ho hc => ⟨_, busAccess_of_error ho hc, blockOf_busError .., ?only, ?agent⟩,
    fun s t => step_keepsFaults⟩
  case only => cases a.agent <;> rfl
  case agent =>
    cases a.agent <;> refine ⟨?_, rfl, rfl⟩
    · cases hf : s.host.fault <;> simp [hf]
    · cases hf : s.driver.fault <;> simp [hf]

end Sys2Proof.Machine
end

section
/-! SUPPORT. The steps of the outside and the runs up to a completion (R40, R72, R110, R270), and the two kinds of stop (R60,
R68). -/

namespace Sys2Proof.Machine

/-- While an operation is in flight and its LATENCY is not over, the outside acts (R40). -/
theorem step_of_waiting {s : State} (hp : s.pending ≠ none) (hw : s.wait ≠ 0) : step s = inputStep (tick s) := by
  obtain ⟨r, hr⟩ := Option.ne_none_iff_exists'.mp hp
  simp [step, machineStep, hr, hw]

/-- While nothing is in flight, the outside acts (R72). -/
theorem step_of_idle {s : State} (hp : s.pending = none) : step s = inputStep s := by
  simp [step, machineStep, hp]

theorem inputStep_of_nil {s : State} (h : s.inputs = []) : inputStep s = .next s := by
  simp [inputStep, h]

theorem inputStep_of_access {s : State} {a : Access} (h : s.inputs.head? = some (.access a)) :
    inputStep s = busAccess a (dropInput s) := by
  obtain ⟨rest, hrest⟩ := List.head?_eq_some_iff.mp h
  simp [inputStep, hrest]

theorem inputStep_of_poll {s : State} (h : s.inputs.head? = some .poll) :
    inputStep s = .next (pollRead (if busy s then s else dropInput s)) := by
  obtain ⟨rest, hrest⟩ := List.head?_eq_some_iff.mp h
  simp [inputStep, hrest]

theorem inputStep_of_reset {s : State} (h : s.inputs.head? = some .reset) :
    inputStep s = .next (resetBlock (dropInput s)) := by
  obtain ⟨rest, hrest⟩ := List.head?_eq_some_iff.mp h
  simp [inputStep, hrest]

/-- The read of a poll returns STATUS to the host (R110). -/
theorem pollRead_eq (s : State) : pollRead s =
    { s with host := { s.host with reads := (0x004, statusWord s) :: s.host.reads } } := by
  rw [pollRead, readReg_of_some (readValue_status s)]
  rfl

/-- Counting down a LATENCY that is over changes nothing. -/
theorem tick_of_wait_eq_zero {s : State} (h : s.wait = 0) : tick s = s := by
  have hw : s.wait - 1 = s.wait := by rw [h]
  rw [tick, hw]

/-- While no request is ready, a step takes the next input (R72). -/
theorem step_of_not_ready {s : State} (hinv : WaitForPendingOnly s) (hq : s.pending ≠ none → s.wait ≠ 0) :
    step s = inputStep (tick s) := by
  by_cases hp : s.pending = none
  · rw [step_of_idle hp, tick_of_wait_eq_zero (hinv hp)]
  · exact step_of_waiting hp (hq hp)

/-- Settles O6: the four heads of the list. -/
theorem stepTakesTheNextInput : Obligations.StepTakesTheNextInput := by
  unfold Obligations.StepTakesTheNextInput
  intro s hinv hq t
  rw [step_of_not_ready hinv hq]
  refine ⟨fun hi => ?nothing, fun a hi => inputStep_of_access hi, fun hi => inputStep_of_reset hi, fun hi => ?poll⟩
  case nothing =>
    rw [inputStep_of_nil (s := tick s) hi]
    simp [t, tick, hi]
  case poll =>
    rw [inputStep_of_poll (s := tick s) hi, pollRead_eq]
    cases hp : s.pending with
    | none => simp [tick, dropInput, statusWord, hp]
    | some r => simp [tick, statusWord, hp]

/-- Settles O43: the reset input is taken unless the ready request is completed first. -/
theorem resetInputResetsTheBlock : Obligations.ResetInputResetsTheBlock := by
  unfold Obligations.ResetInputResetsTheBlock
  intro s hi hq
  by_cases hp : s.pending = none
  · exact ⟨_, (step_of_idle hp).trans (inputStep_of_reset hi), rfl, rfl, rfl⟩
  · exact ⟨_, (step_of_waiting hp (hq.resolve_left hp)).trans (inputStep_of_reset (s := tick s) hi), rfl, rfl, rfl⟩

/-- Settles O44: both buffers are empty after reset, and ERR and LATENCY are 0. -/
theorem resetMeetsTheInvariants : Obligations.ResetMeetsTheInvariants := by
  unfold Obligations.ResetMeetsTheInvariants
  exact ⟨by decide, reset_countsInRange, ⟨[], rfl⟩, trivial, nofun, Nat.zero_le 5, fun _ => rfl⟩

/-- An access inside the window goes on, or is refused (R68). -/
theorem busAccess_inside {a : Access} (s : State) (ho : a.offset < 0x3000) :
    (∃ t, busAccess a s = .next t)
      ∨ ∃ v r, s.pending ≠ none ∧ a.op = .write v ∧ busTarget a s = .ok r
        ∧ busAccess a s = .refused (.writeWhileBusy a.agent a.offset) := by
  cases hr : busTarget a s with
  | error c => exact .inl ⟨_, busAccess_of_error ho hr⟩
  | ok r =>
    cases hop : a.op with
    | read => exact .inl ⟨_, busAccess_of_read ho hop hr⟩
    | write v =>
      by_cases hp : s.pending = none
      · exact .inl ⟨_, busAccess_of_write_idle ho hop hr hp⟩
      · exact .inr ⟨v, r, hp, rfl, rfl, busAccess_of_write_busy ho hop hr hp⟩

/-- When an access stops the machine with a fault (R60). -/
theorem busAccess_eq_fault_iff (a : Access) (s : State) (f : Fault) :
    busAccess a s = .fault f ↔ 0x3000 ≤ a.offset ∧ f = .outsideWindow a.agent a.offset := by
  rcases Nat.lt_or_ge a.offset 0x3000 with ho | ho
  · refine iff_of_false ?_ fun h => absurd ho (Nat.not_lt.mpr h.1)
    rcases busAccess_inside s ho with ⟨t, ht⟩ | ⟨v, r, -, -, -, ht⟩ <;> rw [ht] <;> exact nofun
  · rw [busAccess_of_outside s ho]
    constructor
    · rintro ⟨⟩
      exact ⟨ho, rfl⟩
    · rintro ⟨-, rfl⟩
      rfl

/-- When an access is refused (R68). -/
theorem busAccess_eq_refused_iff (a : Access) (s : State) (x : Refusal) :
    busAccess a s = .refused x ↔ ∃ v r, s.pending ≠ none ∧ a.offset < 0x3000 ∧ a.op = .write v ∧ busTarget a s = .ok r
      ∧ x = .writeWhileBusy a.agent a.offset := by
  constructor
  · intro h
    rcases Nat.lt_or_ge a.offset 0x3000 with ho | ho
    · rcases busAccess_inside s ho with ⟨t, ht⟩ | ⟨v, r, hp, hop, hr, ht⟩ <;> rw [ht] at h <;> cases h
      exact ⟨v, r, hp, ho, hop, hr, rfl⟩
    · rw [busAccess_of_outside s ho] at h
      cases h
  · rintro ⟨v, r, hp, ho, hop, hr, rfl⟩
    exact busAccess_of_write_busy ho hop hr hp

/-- A step of the outside that stops is an access that stops. -/
theorem inputStep_stops_iff (s : State) (o : Host.Outcome State Fault Refusal) (ho : ∀ t, o ≠ .next t) :
    inputStep s = o ↔ ∃ a, s.inputs.head? = some (.access a) ∧ busAccess a (dropInput s) = o := by
  rcases hi : s.inputs with _ | ⟨_ | _ | _, rest⟩ <;> simp [inputStep, hi, (ho _).symm]

/-- A step completes the ready request, which goes on, or is one of the outside at some count of LATENCY. -/
theorem step_completes_or_inputStep (s : State) :
    ((s.pending ≠ none ∧ s.wait = 0) ∧ ∃ t, step s = .next t)
      ∨ ((s.pending = none ∨ s.wait ≠ 0) ∧ ∃ w, step s = inputStep { s with wait := w }) := by
  by_cases hp : s.pending = none
  · exact .inr ⟨.inl hp, s.wait, step_of_idle hp⟩
  by_cases hw : s.wait = 0
  · obtain ⟨r, hr⟩ := Option.ne_none_iff_exists'.mp hp
    rw [step_of_ready hr hw]
    exact .inl ⟨⟨hp, hw⟩, complete_answers r s⟩
  · exact .inr ⟨.inr hw, s.wait - 1, step_of_waiting hp hw⟩

/-- Settles O9: the step stops where its access does. -/
theorem stepStopsOnlyAtTheBus : Obligations.StepStopsOnlyAtTheBus := by
  unfold Obligations.StepStopsOnlyAtTheBus
  intro s
  rcases step_completes_or_inputStep s with ⟨⟨hp, hw⟩, t, ht⟩ | ⟨hq, w, hstep⟩
  · rw [ht]
    refine ⟨fun f => iff_of_false nofun ?_, fun x => iff_of_false nofun ?_⟩
    · rintro ⟨a, -, hq, -⟩
      exact hq.elim hp (· hw)
    · rintro ⟨a, v, r, -, -, hw', -⟩
      exact hw' hw
  · rw [hstep]
    refine ⟨fun f => ?fault, fun x => ?refused⟩
    case fault =>
      rw [inputStep_stops_iff _ (.fault f) (fun _ => nofun)]
      simp only [busAccess_eq_fault_iff, hq, true_and]
    case refused =>
      rw [inputStep_stops_iff _ (.refused x) (fun _ => nofun)]
      simp only [busAccess_eq_refused_iff]
      constructor
      · rintro ⟨a, hi, v, r, hp, ho, hop, hr, rfl⟩
        exact ⟨a, v, r, hi, hp, hq.resolve_left hp, ho, hop, hr, rfl⟩
      · rintro ⟨a, v, r, hi, hp, -, ho, hop, hr, rfl⟩
        exact ⟨a, hi, v, r, hp, ho, hop, hr, rfl⟩

/-- A run is its first step, then the rest. -/
theorem run_succ_of_next (k : Nat) {s t : State} (h : step s = .next t) :
    Sys2Proof.core.run (k + 1) s = Sys2Proof.core.run k t := by
  have hstep : Sys2Proof.core.step s = .next t := h
  simp only [Host.Core.run, hstep]

/-- A run that goes on has a first step that goes on. -/
theorem exists_step_of_run_succ {k : Nat} {s t : State} (h : Sys2Proof.core.run (k + 1) s = .next t) :
    ∃ u, step s = .next u ∧ Sys2Proof.core.run k u = .next t := by
  cases hs : step s with
  | next u => exact ⟨u, rfl, (run_succ_of_next k hs).symm.trans h⟩
  | fault f =>
    have hstep : Sys2Proof.core.step s = .fault f := hs
    simp only [Host.Core.run, hstep, reduceCtorEq] at h
  | refused r =>
    have hstep : Sys2Proof.core.step s = .refused r := hs
    simp only [Host.Core.run, hstep, reduceCtorEq] at h

/-- A run goes on from where its first steps end. -/
theorem run_add_of_next {a : Nat} (b : Nat) {s t : State} (h : Sys2Proof.core.run a s = .next t) :
    Sys2Proof.core.run (a + b) s = Sys2Proof.core.run b t := by
  induction a generalizing s with
  | zero =>
    cases h
    rw [Nat.zero_add]
  | succ a ih =>
    obtain ⟨u, hu, hrest⟩ := exists_step_of_run_succ h
    rw [Nat.add_right_comm a 1 b, run_succ_of_next _ hu, ih hrest]

/-- The state after `k` reads of a poll while an operation is in flight (R110). -/
def polled (k : Nat) (s : State) : State :=
  { s with
    wait := s.wait - k
    host := { s.host with reads := List.replicate k (0x004, statusWord s) ++ s.host.reads } }

/-- One more read of the poll. -/
theorem step_polled {s : State} {k : Nat} (hp : s.pending ≠ none) (hi : s.inputs.head? = some .poll)
    (hk : k < s.wait) : step (polled k s) = .next (polled (k + 1) s) := by
  have hw : (polled k s).wait ≠ 0 := Nat.sub_ne_zero_of_lt hk
  have hbusy : busy (tick (polled k s)) = true := Option.isSome_iff_ne_none.mpr hp
  rw [step_of_waiting (s := polled k s) hp hw, inputStep_of_poll (s := tick (polled k s)) hi, hbusy, if_pos rfl, pollRead_eq]
  rfl

theorem run_polled {s : State} (hp : s.pending ≠ none) (hi : s.inputs.head? = some .poll) {k : Nat} (hk : k ≤ s.wait) :
    Sys2Proof.core.run k s = .next (polled k s) := by
  induction k with
  | zero => rfl
  | succ k ih =>
    rw [run_add_of_next 1 (ih (by omega)), run_succ_of_next 0 (step_polled hp hi hk)]
    rfl

/-- Settles O8: the poll reads through LATENCY, the completion follows, and the next read ends the poll. -/
theorem pollEndsAfterTheLatency : Obligations.PollEndsAfterTheLatency := by
  unfold Obligations.PollEndsAfterTheLatency
  intro s r rest hp hi
  have hpoll : s.inputs.head? = some .poll := by rw [hi]; rfl
  have hend : polled s.wait s = { s with
      wait := 0, host := { s.host with reads := List.replicate s.wait (0x004, statusWord s) ++ s.host.reads } } := by
    rw [polled, Nat.sub_self]
  obtain ⟨t, ht⟩ := complete_answers r (polled s.wait s)
  obtain ⟨hidle, -⟩ := complete_leaves_idle ht
  have hin : t.inputs = .poll :: rest := by
    rw [complete_frame ht]
    exact hi
  have hcompletes : step (polled s.wait s) = .next t := 
    (step_of_ready (s := polled s.wait s) hp (Nat.sub_self _)).trans ht
  have hlast : step t = .next { t with
      inputs := rest, host := { t.host with reads := (0x004, statusWord t) :: t.host.reads } } := by
    have hnotBusy : busy t = false := by rw [busy_eq, hidle]; rfl
    have hdrop : dropInput t = { t with inputs := rest } := by rw [dropInput, hin]; rfl
    rw [step_of_idle hidle, inputStep_of_poll (by rw [hin]; rfl), hnotBusy, pollRead_eq, if_neg (by decide), hdrop]
    rfl
  refine ⟨t, _, hend ▸ ht, hidle, ?run, rfl⟩
  case run =>
    rw [run_add_of_next 2 (run_polled (by simp [hp]) hpoll (Nat.le_refl s.wait)), run_succ_of_next 1 hcompletes,
      run_succ_of_next 0 hlast]
    rfl

/-- The steps before a completion, one after the other (R40). -/
theorem run_before_completion {k : Nat} {s : State} (hp : s.pending ≠ none)
    (hi : ∀ i ∈ s.inputs.take s.wait, i = .poll ∨ ∃ a, i = .access a ∧ a.offset < 0x3000 ∧ a.op = .read)
    (hk : k ≤ s.wait) : ∃ t, Sys2Proof.core.run k s = .next t ∧ blockOf t = blockOf s ∧ t.wait = s.wait - k := by
  induction k generalizing s with
  | zero => exact ⟨s, rfl, rfl, rfl⟩
  | succ k ih =>
    obtain ⟨w, hw⟩ := Nat.exists_eq_add_one_of_ne_zero (show s.wait ≠ 0 by omega)
    obtain ⟨r, hr⟩ := Option.ne_none_iff_exists'.mp hp
    have hhead : ∀ i, s.inputs.head? = some i → i = .poll ∨ ∃ a, i = .access a ∧ a.offset < 0x3000 ∧ a.op = .read := by
      intro i hhead
      obtain ⟨rest, hrest⟩ := List.head?_eq_some_iff.mp hhead
      exact hi i (by simp [hrest, hw])
    obtain ⟨u, hu, hblock, hwait, hinputs⟩ := step_before_completion hr (by omega) hhead
    have hup : u.pending = s.pending := congrArg (fun x => x.pending) hblock
    have hsub : u.inputs.take u.wait ⊆ s.inputs.take s.wait := by
      rw [hwait, hw, Nat.add_sub_cancel]
      rcases hinputs with hin | hin <;> rw [hin]
      · have htail : (s.inputs.take (w + 1)).tail = s.inputs.tail.take w := List.tail_take_eq_take_tail ..
        rw [← htail]
        exact List.tail_subset _
      · exact List.take_subset_take_left _ (Nat.le_succ w)
    obtain ⟨t, ht, hblock', hwait'⟩ := ih (hup ▸ hp) (fun i h => hi i (hsub h)) (by omega)
    exact ⟨t, (run_succ_of_next k hu).trans ht, hblock'.trans hblock, by omega⟩

/-- Settles O57: LATENCY passes, and the step after it completes the request. -/
theorem pendingOperationCompletes : Obligations.PendingOperationCompletes := by
  unfold Obligations.PendingOperationCompletes
  intro s r hp hi
  have hbusy : s.pending ≠ none := by simp [hp]
  refine ⟨fun k hk => run_before_completion hbusy hi hk, ?_⟩
  obtain ⟨t, ht, hblock, hwait⟩ := run_before_completion hbusy hi (Nat.le_refl s.wait)
  have htp : t.pending = some r := (congrArg (fun x => x.pending) hblock).trans hp
  obtain ⟨u, hu⟩ := complete_answers r t
  obtain ⟨hidle, -⟩ := complete_leaves_idle hu
  have hstep : step t = .next u := (step_of_ready htp (by omega)).trans hu
  exact ⟨t, u, ht, hu, (run_add_of_next 1 ht).trans (run_succ_of_next 0 hstep), hidle⟩

end Sys2Proof.Machine
end
